-- ==== Sys2Proof/Word.lean ====
section
/-! DEFINITION. Widths, the two capture channels, the two axes, and pairs of cells indexed by them
(spec/00_scope.md R5, R6, R7). -/

namespace Sys2Proof

/-- A 16-bit cell or operand: counter, timestamp, position sample, accumulator, `RES` (R5 TIMER_BITS, ACC_BITS). -/
abbrev Word := BitVec 16

/-- An 8-bit cell: velocity, window counter; also one stored byte of a command word (R5 VEL_BITS, R33, R62). -/
abbrev Byte := BitVec 8

/-- A 40-bit command word `W[39:0]` (R80). -/
abbrev CmdWord := BitVec 40

/-- A capture channel `c` in `{0, 1}` (R5 NCHAN = 2, R7). -/
inductive Channel where
  | c0
  | c1
deriving DecidableEq, Repr, Inhabited

/-- An axis `a` in `{X, Y}` (R7). -/
inductive Axis where
  | x
  | y
deriving DecidableEq, Repr, Inhabited

/-- Two cells, one per capture channel. -/
structure PerChannel (α : Type) where
  c0 : α
  c1 : α
deriving DecidableEq, Repr

/-- Two cells, one per axis. -/
structure PerAxis (α : Type) where
  x : α
  y : α
deriving DecidableEq, Repr

/-- The cell of channel `c`. -/
def PerChannel.get {α : Type} (p : PerChannel α) : Channel → α
  | .c0 => p.c0
  | .c1 => p.c1

/-- Write `v` into the cell of channel `c`, the other cell untouched. -/
def PerChannel.set {α : Type} (p : PerChannel α) : Channel → α → PerChannel α
  | .c0, v => { p with c0 := v }
  | .c1, v => { p with c1 := v }

/-- The cell of axis `a`. -/
def PerAxis.get {α : Type} (p : PerAxis α) : Axis → α
  | .x => p.x
  | .y => p.y

/-- Write `v` into the cell of axis `a`, the other cell untouched. -/
def PerAxis.set {α : Type} (p : PerAxis α) : Axis → α → PerAxis α
  | .x, v => { p with x := v }
  | .y, v => { p with y := v }

end Sys2Proof
end

