-- ==== Sys2Proof/Config.lean ====
section
/-! DEFINITION. The parameters of the block (spec/00_scope.md R5; open ones in spec/92_eei_decisions.md) and the
free values that stand for cells the spec leaves without a value (spec/93_implementation_defined.md U7, U8). -/

namespace Sys2Proof

/-- The parameters a run is given as arguments (R5): the spec fixes neither. They are constant during a run.
DESIGN CHOICE (notes/assumptions/3.md): they travel in State, read-only, so that every statement over all states
holds for every admitted value. -/
structure Params where
  /-- `DEAD_TICKS`, `0 ≤ DEAD_TICKS < 2^16` (R5, D18). -/
  deadTicks : Word
  /-- `N_WINDOW - 1`; the type is the range `1 ≤ N_WINDOW ≤ 64` (R5, D19). -/
  window : Fin 64
deriving DecidableEq, Repr

/-- `N_WINDOW`, the output window length in Discharge+Read pairs (R5). -/
def Params.nWindow (p : Params) : Nat := p.window.val + 1

namespace Config

/-- `NCHAN`: capture channels (R5); they are the constructors of `Channel`. -/
def nchan : Nat := 2

/-- `TIMER_BITS`: width of counter and timestamp (R5); the width of `Word`. -/
def timerBits : Nat := 16

/-- `POS_BITS`: the bits of a position sample that carry position (R5). -/
def posBits : Nat := 11

/-- `PRESCALE`: reference clock periods for one count, fixed by design (R5, R194). -/
def prescale : Nat := 1

/-- `ACC_BITS`: accumulator width (R5). -/
def accBits : Nat := 16

/-- `VEL_BITS`: velocity width (R5). -/
def velBits : Nat := 8

/-- `DEAD_US`: the dead-time in microseconds (R5). -/
def deadUs : Nat := 256

/-- `TICK_HALF_US`: the tick period in microseconds; timing only, no rule depends on it (R5, R195). -/
def tickHalfUs : Nat := 256

/-- The dead-time in ticks for a reference clock of `fRefMHz` MHz: `DEAD_US * F_REF[MHz]`, reduced to 16 bits (R5).
`F_REF` is not in the source (N1), so no definition of the model fixes it.
DESIGN CHOICE (notes/assumptions/23.md): a whole number of MHz; where `F_REF` is fractional the product need not be
whole, and the spec states no rounding. No other definition uses this function. -/
def deadTicksOf (fRefMHz : Nat) : Word := BitVec.ofNat timerBits (deadUs * fRefMHz)

/-- The design default of `N_WINDOW`, 40, as `N_WINDOW - 1` (R5, D19). -/
def defaultWindow : Fin 64 := 39

/-- `DEAD_TICKS` of the run that starts at `State.reset`: OPEN (D18), so no body. -/
opaque deadTicks : Word

/-- `TS_INIT[c]`, what `ts[c]` holds when `INIT` completes in a run from `State.reset` with no event before `INIT`:
OPEN, any 16-bit value (D9, U7), so no body. -/
opaque tsInit : Channel → Word

/-- Free 16-bit values: what a capture cell without a value may read as (U8). No body. -/
opaque freeWord : Nat → Word

/-- Free bits: what a capture flag without a value may read as (U8, U14). No body. -/
opaque freeBit : Nat → Bool

/-- The parameters of the run that starts at `State.reset`: the open dead-time and the design default window
(notes/assumptions/3.md, 4.md). -/
def params : Params := { deadTicks := deadTicks, window := defaultWindow }

end Config

end Sys2Proof
end

