-- ==== Sys2Proof/Syntax.lean ====
section
/-! DEFINITION. The seventeen operations (spec/30_encoding.md R83) and the terms the assembler's text stands for
(R87, R88). -/

namespace Sys2Proof

/-- One operation of the block, one constructor per row of spec/opcode_table.json. Operand widths are those of the
formats (R81, R82), so that every value of this type has an encoding. -/
inductive Instr where
  /-- `INIT` (R100). -/
  | init
  /-- `ARM` (R101). -/
  | arm
  /-- `DISARM c` (R102). -/
  | disarm (c : Channel)
  /-- `TSTAMP c` (R103). -/
  | tstamp (c : Channel)
  /-- `ISRUN c` (R104). -/
  | isrun (c : Channel)
  /-- `CLK m` (R105): bit `c` of the mask selects channel `c`. -/
  | clk (m : BitVec 2)
  /-- `EDGE c` (R106). -/
  | edge (c : Channel)
  /-- `TOPOS v` (R123). -/
  | topos (v : Word)
  /-- `CDELTA p, q` (R124): previous sample, then current sample. -/
  | cdelta (p : Word) (q : Word)
  /-- `ACCUM a, d` (R125): `d` is read in two's complement. -/
  | accum (a : Axis) (d : Word)
  /-- `FLUSH a` (R126). -/
  | flush (a : Axis)
  /-- `SAMPLE a` (R127). -/
  | sample (a : Axis)
  /-- `TICK b` (R141): `b[0]` left pin level, `b[1]` right pin level. -/
  | tick (b : BitVec 2)
  /-- `SENSELOW` (R143). -/
  | senselow
  /-- `RELEASE` (R144). -/
  | release
  /-- `BUTTONS b` (R145). -/
  | buttons (b : BitVec 2)
  /-- `CADENCE` (R146). -/
  | cadence
deriving DecidableEq, Repr

/-- The mnemonics of the assembler's text: the seventeen of R83, then the pseudo-operations of R88. -/
inductive Mnem where
  | init
  | arm
  | disarm
  | tstamp
  | isrun
  | clk
  | edge
  | topos
  | cdelta
  | accum
  | flush
  | sample
  | tick
  | senselow
  | release
  | buttons
  | cadence
  | clks
  | disarmall
deriving DecidableEq, Repr

/-- One written operand (R87): a number, or an axis written by its letter. -/
inductive Arg where
  | num (v : Int)
  | letter (a : Axis)
deriving DecidableEq, Repr

/-- One operation as written, not yet checked: a mnemonic and its operands (R87). -/
structure Src where
  mnem : Mnem
  args : List Arg
deriving DecidableEq, Repr

/-- The mnemonic of an operation (R83). -/
def Instr.mnem : Instr → Mnem
  | .init => .init
  | .arm => .arm
  | .disarm _ => .disarm
  | .tstamp _ => .tstamp
  | .isrun _ => .isrun
  | .clk _ => .clk
  | .edge _ => .edge
  | .topos _ => .topos
  | .cdelta _ _ => .cdelta
  | .accum _ _ => .accum
  | .flush _ => .flush
  | .sample _ => .sample
  | .tick _ => .tick
  | .senselow => .senselow
  | .release => .release
  | .buttons _ => .buttons
  | .cadence => .cadence

/-- A channel as a written operand, `0` or `1` (R87). -/
def Channel.arg : Channel → Arg
  | .c0 => .num 0
  | .c1 => .num 1

/-- An operation written out with its operands (R87); the delta of `ACCUM` as the signed number it is. -/
def Instr.src (i : Instr) : Src :=
  { mnem := i.mnem
    args :=
      match i with
      | .init | .arm | .senselow | .release | .cadence => []
      | .disarm c | .tstamp c | .isrun c | .edge c => [c.arg]
      | .clk m | .tick m | .buttons m => [.num m.toNat]
      | .topos v => [.num v.toNat]
      | .cdelta p q => [.num p.toNat, .num q.toNat]
      | .accum a d => [.letter a, .num d.toInt]
      | .flush a | .sample a => [.letter a] }

end Sys2Proof
end

