-- ==== Sys2Proof/WellFormed.lean ====
section
/-! DEFINITION. Which written operations are well formed: the number of operands and the range of each
(spec/30_encoding.md R82, R87, R88). An `Instr` carries its ranges in its types, so its written form always passes
(Sys2Proof/Laws/WellFormed.lean). -/

namespace Sys2Proof

/-- What an operand position takes (R81, R82, R87, R88). -/
inductive OperandKind where
  /-- `c`: written `0` or `1`. -/
  | channel
  /-- `a`: written `X` or `Y`, or `0` or `1`. -/
  | axis
  /-- a mask or a pin sample: written `0` to `3`. -/
  | mask
  /-- an unsigned 16-bit value. -/
  | value
  /-- the `d` of `ACCUM`: a 16-bit value, or a negative number down to `-32768`. -/
  | delta
  /-- the repeat count of `CLKS`, `k ≥ 0`. DESIGN CHOICE: without an upper bound (R88 gives none;
  notes/assumptions/13.md). -/
  | count
deriving DecidableEq, Repr

/-- Does the written operand lie in the range of the position (R87, R88)? -/
def OperandKind.admits : OperandKind → Arg → Bool
  | .channel, .num v => decide (0 ≤ v ∧ v ≤ 1)
  | .axis, .num v => decide (0 ≤ v ∧ v ≤ 1)
  | .axis, .letter _ => true
  | .mask, .num v => decide (0 ≤ v ∧ v ≤ 3)
  | .value, .num v => decide (0 ≤ v ∧ v ≤ 65535)
  | .delta, .num v => decide (-32768 ≤ v ∧ v ≤ 65535)
  | .count, .num v => decide (0 ≤ v)
  | .channel, .letter _ => false
  | .mask, .letter _ => false
  | .value, .letter _ => false
  | .delta, .letter _ => false
  | .count, .letter _ => false

/-- The operand lists a mnemonic may be written with (R83; R88 for `CLK`, `TICK` without an operand and for `CLKS`). -/
def Mnem.shapes : Mnem → List (List OperandKind)
  | .init | .arm | .senselow | .release | .cadence | .disarmall => [[]]
  | .disarm | .tstamp | .isrun | .edge => [[.channel]]
  | .clk | .tick => [[], [.mask]]
  | .buttons => [[.mask]]
  | .topos => [[.value]]
  | .cdelta => [[.value, .value]]
  | .accum => [[.axis, .delta]]
  | .flush | .sample => [[.axis]]
  | .clks => [[.count], [.count, .mask]]

/-- Do the written operands fit one operand list: as many, and each in range? -/
def fits : List OperandKind → List Arg → Bool
  | [], [] => true
  | k :: ks, a :: as => k.admits a && fits ks as
  | [], _ :: _ => false
  | _ :: _, [] => false

/-- Is the written operation well formed? -/
def Src.wf (s : Src) : Bool := s.mnem.shapes.any fun shape => fits shape s.args

/-- Is the operation's written form well formed? -/
def Instr.wf (i : Instr) : Bool := i.src.wf

end Sys2Proof
end

