-- ==== Sys2Proof/Decode.lean ====
section
/-! DEFINITION. Command words: the fields (spec/30_encoding.md R80), the decoder, total and rejecting by name
(R81 to R84), the encoder, the opcode map as rows of match and mask (R83), and the words as bytes
(spec/20_memory.md R62, D23). -/

namespace Sys2Proof

/-! ### Fields of a command word (R80) -/

/-- `op = W[39:32]` (R80). -/
def opField (w : CmdWord) : BitVec 8 := w.extractLsb' 32 8

/-- `A = W[31:16]` (R80). -/
def aField (w : CmdWord) : Word := w.extractLsb' 16 16

/-- `B = W[15:0]` (R80). -/
def bField (w : CmdWord) : Word := w.extractLsb' 0 16

/-- A command word from its three fields (R80). -/
def mkWord (op : BitVec 8) (a b : Word) : CmdWord := op ++ a ++ b

/-! ### Operands as bits (R82) -/

/-- Channel 0 is the bit 0, channel 1 the bit 1 (R82). -/
def channelOfBit (b : Bool) : Channel := if b then .c1 else .c0

/-- The bit of a channel (R82). -/
def Channel.bit : Channel → Word
  | .c0 => 0
  | .c1 => 1

/-- Axis X is the bit 0, axis Y the bit 1 (R82). -/
def axisOfBit (b : Bool) : Axis := if b then .y else .x

/-- The bit of an axis (R82). -/
def Axis.bit : Axis → Word
  | .x => 0
  | .y => 1

/-! ### Decoding -/

/-- What the decoder answers: an operation, or the reason the word is reserved (R84). -/
inductive Decoded where
  /-- The word is this operation. -/
  | instr (i : Instr)
  /-- Reserved: `op` is none of the seventeen values of R83. -/
  | reservedOpcode
  /-- Reserved: a bit that the format requires to be zero is one. -/
  | reservedBits
deriving DecidableEq, Repr

/-- The operation a decoding gives, if it gives one. -/
def Decoded.toOption : Decoded → Option Instr
  | .instr i => some i
  | .reservedOpcode => none
  | .reservedBits => none

/-- Format Z: all of `A` and `B` zero (R81). -/
def decodeZ (w : CmdWord) (i : Instr) : Decoded :=
  if aField w = 0 ∧ bField w = 0 then .instr i else .reservedBits

/-- Format C with a channel: `A` zero, `B[15:1]` zero, `c = B[0]` (R81, R82). -/
def decodeC (w : CmdWord) (f : Channel → Instr) : Decoded :=
  if aField w = 0 ∧ (bField w).extractLsb' 1 15 = 0 then .instr (f (channelOfBit ((bField w).getLsbD 0)))
  else .reservedBits

/-- Format C with an axis: `A` zero, `B[15:1]` zero, `a = B[0]` (R81, R82). -/
def decodeCAxis (w : CmdWord) (f : Axis → Instr) : Decoded :=
  if aField w = 0 ∧ (bField w).extractLsb' 1 15 = 0 then .instr (f (axisOfBit ((bField w).getLsbD 0)))
  else .reservedBits

/-- Format M: `A` zero, `B[15:2]` zero, the two bits `B[1:0]` (R81, R82). -/
def decodeM (w : CmdWord) (f : BitVec 2 → Instr) : Decoded :=
  if aField w = 0 ∧ (bField w).extractLsb' 2 14 = 0 then .instr (f ((bField w).extractLsb' 0 2))
  else .reservedBits

/-- Format V: `A` zero, the value `B` (R81, R82). -/
def decodeV (w : CmdWord) (f : Word → Instr) : Decoded :=
  if aField w = 0 then .instr (f (bField w)) else .reservedBits

/-- Format P: the values `A` and `B` (R81, R82). -/
def decodeP (w : CmdWord) (f : Word → Word → Instr) : Decoded := .instr (f (aField w) (bField w))

/-- Format XV: `A[15:1]` zero, `a = A[0]`, the value `B` (R81, R82). -/
def decodeXV (w : CmdWord) (f : Axis → Word → Instr) : Decoded :=
  if (aField w).extractLsb' 1 15 = 0 then .instr (f (axisOfBit ((aField w).getLsbD 0)) (bField w))
  else .reservedBits

/-- The decoder, total on all `2^40` words: the opcode map of R83, reserved words by name (R84). No mode changes
it (R86). -/
def decode (w : CmdWord) : Decoded :=
  match (opField w).toNat with
  | 0x01 => decodeZ w .init
  | 0x02 => decodeZ w .arm
  | 0x03 => decodeC w .disarm
  | 0x04 => decodeC w .tstamp
  | 0x05 => decodeC w .isrun
  | 0x08 => decodeM w .clk
  | 0x09 => decodeC w .edge
  | 0x10 => decodeV w .topos
  | 0x11 => decodeP w .cdelta
  | 0x12 => decodeXV w .accum
  | 0x13 => decodeCAxis w .flush
  | 0x14 => decodeCAxis w .sample
  | 0x20 => decodeM w .tick
  | 0x21 => decodeZ w .senselow
  | 0x22 => decodeZ w .release
  | 0x23 => decodeM w .buttons
  | 0x24 => decodeZ w .cadence
  | _ => .reservedOpcode

/-! ### Encoding -/

/-- The command word of an operation (R81, R82, R83). -/
def encode : Instr → CmdWord
  | .init => mkWord 0x01 0 0
  | .arm => mkWord 0x02 0 0
  | .disarm c => mkWord 0x03 0 c.bit
  | .tstamp c => mkWord 0x04 0 c.bit
  | .isrun c => mkWord 0x05 0 c.bit
  | .clk m => mkWord 0x08 0 (m.setWidth 16)
  | .edge c => mkWord 0x09 0 c.bit
  | .topos v => mkWord 0x10 0 v
  | .cdelta p q => mkWord 0x11 p q
  | .accum a d => mkWord 0x12 a.bit d
  | .flush a => mkWord 0x13 0 a.bit
  | .sample a => mkWord 0x14 0 a.bit
  | .tick b => mkWord 0x20 0 (b.setWidth 16)
  | .senselow => mkWord 0x21 0 0
  | .release => mkWord 0x22 0 0
  | .buttons b => mkWord 0x23 0 (b.setWidth 16)
  | .cadence => mkWord 0x24 0 0

/-! ### The opcode map as a table (R83) -/

/-- One row of the opcode map: a word `W` selects it when `(W AND mask) = match` (R83). -/
structure Row where
  mnem : Mnem
  value : CmdWord
  mask : CmdWord
deriving DecidableEq, Repr

/-- Does the word select the row (R83)? -/
def Row.selects (r : Row) (w : CmdWord) : Bool := w &&& r.mask == r.value

/-- Group `0x0_` of the opcode map: the Capture Timer and its environment events (R83). -/
def timerRows : List Row :=
  [⟨.init, 0x0100000000, 0xFFFFFFFFFF⟩, ⟨.arm, 0x0200000000, 0xFFFFFFFFFF⟩,
   ⟨.disarm, 0x0300000000, 0xFFFFFFFFFE⟩, ⟨.tstamp, 0x0400000000, 0xFFFFFFFFFE⟩,
   ⟨.isrun, 0x0500000000, 0xFFFFFFFFFE⟩, ⟨.clk, 0x0800000000, 0xFFFFFFFFFC⟩,
   ⟨.edge, 0x0900000000, 0xFFFFFFFFFE⟩]

/-- Group `0x1_` of the opcode map: the Decoder (R83). -/
def decoderRows : List Row :=
  [⟨.topos, 0x1000000000, 0xFFFFFF0000⟩, ⟨.cdelta, 0x1100000000, 0xFF00000000⟩,
   ⟨.accum, 0x1200000000, 0xFFFFFE0000⟩, ⟨.flush, 0x1300000000, 0xFFFFFFFFFE⟩,
   ⟨.sample, 0x1400000000, 0xFFFFFFFFFE⟩]

/-- Group `0x2_` of the opcode map: the Synchronization State Machine (R83). -/
def fsmRows : List Row :=
  [⟨.tick, 0x2000000000, 0xFFFFFFFFFC⟩, ⟨.senselow, 0x2100000000, 0xFFFFFFFFFF⟩,
   ⟨.release, 0x2200000000, 0xFFFFFFFFFF⟩, ⟨.buttons, 0x2300000000, 0xFFFFFFFFFC⟩,
   ⟨.cadence, 0x2400000000, 0xFFFFFFFFFF⟩]

/-- The opcode map of R83, seventeen rows. -/
def opcodeTable : List Row := timerRows ++ decoderRows ++ fsmRows

/-! ### Command words as bytes (R62, D23) -/

/-- The five bytes of a command word, most significant first: `op`, `A` high, `A` low, `B` high, `B` low (R62). -/
def bytesOfWord (w : CmdWord) : List Byte :=
  [w.extractLsb' 32 8, w.extractLsb' 24 8, w.extractLsb' 16 8, w.extractLsb' 8 8, w.extractLsb' 0 8]

/-- The command words of a stored byte sequence, five bytes each, most significant first (R62). A sequence that ends
inside a word is rejected: the block sees all 40 bits of a word or none (R63). -/
def wordsOfBytes : List Byte → Option (List CmdWord)
  | [] => some []
  | b4 :: b3 :: b2 :: b1 :: b0 :: rest => (wordsOfBytes rest).map fun ws => (b4 ++ b3 ++ b2 ++ b1 ++ b0) :: ws
  | _ :: _ => none

/-! ### The host's view of one table word -/

/-- The operation the decoder reads from the word whose bits are `w`, of which the table gives `nbits`; bits above
`nbits` are zero, and a word with a bit above bit 39 is no command word (R80; notes/assumptions/2.md). -/
def decodeTableWord (nbits w : Nat) : Option Instr :=
  let v := w % 2 ^ nbits
  if v < 2 ^ 40 then (decode (BitVec.ofNat 40 v)).toOption else none

end Sys2Proof
end

