-- ==== Sys2Proof/Machine/State.lean ====
section
/-! DEFINITION. The state of the block (spec/10_state.md R20 to R35), its ports (spec/20_memory.md R61), the reasons
a step can stop, and the state after reset (spec/10_state.md R38). -/

namespace Sys2Proof.Machine

/-- The cells of one capture channel (R21 to R25). -/
structure Capture where
  /-- `cnt[c]`: the free-running counter (R21). -/
  cnt : Word
  /-- `ts[c]`: the timestamp latch (R22). -/
  ts : Word
  /-- `run[c]`: the counter is counting (R23). -/
  run : Bool
  /-- `armed[c]`: edge capture and its interrupt are enabled (R24). -/
  armed : Bool
  /-- `pend[c]`: the pending-edge flag (R25). -/
  pend : Bool
deriving DecidableEq, Repr

/-- The cells of one axis of the decoder (R28 to R30). -/
structure AxisState where
  /-- `cur[a]`: the current position sample, all 16 bits (R28). -/
  cur : Word
  /-- `prev[a]`: the previous position sample (R28). -/
  prev : Word
  /-- `acc[a]`: the accumulator, read in two's complement (R29). -/
  acc : Word
  /-- `vout[a]`: the last velocity, read in two's complement (R30). -/
  vout : Byte
deriving DecidableEq, Repr

/-- The direction of a sense-line driver (R34). -/
inductive Dir where
  | input
  | output
deriving DecidableEq, Repr

/-- The driver cells of one sense line (R34). -/
structure SenseLine where
  /-- `sl_dir[c]`: In or Out. -/
  dir : Dir
  /-- `sl_out[c]`: the level driven when Out, true = high. -/
  out : Bool
  /-- `sl_pu[c]`: pull-up enabled when In. -/
  pullup : Bool
deriving DecidableEq, Repr

/-- `CycleMode`: the phase whose entry actions the next `TICK` performs (R32). -/
inductive Phase where
  | discharge
  | read
deriving DecidableEq, Repr

/-- The `REPORT` record (R147): two velocities and the button mask, `bm[0]` left pressed, `bm[1]` right pressed. -/
structure Report where
  vx : Byte
  vy : Byte
  bm : BitVec 2
deriving DecidableEq, Repr

/-- The state of the machine: the cells of R20, the ports of R61, the run's parameters (R5) and its remaining
command words (R9), and the model's own counter of free values. Plain data. -/
structure State where
  /-- The parameters of the run; no operation writes them (R5; notes/assumptions/3.md). -/
  params : Params
  /-- The two capture channels (R21 to R25). -/
  chan : PerChannel Capture
  /-- The two axes of the decoder (R28 to R30). -/
  axis : PerAxis AxisState
  /-- `btn_left`: true means pressed (R31). -/
  btnLeft : Bool
  /-- `btn_right`: true means pressed (R31). -/
  btnRight : Bool
  /-- `mode` (R32). -/
  mode : Phase
  /-- `cyc`: discharge entries completed in the current output window (R33). -/
  cyc : Byte
  /-- The two sense-line drivers (R34). -/
  line : PerChannel SenseLine
  /-- Ghost bit: `INIT` has been performed (R35). -/
  inited : Bool
  /-- Ghost bit: an `ARM` has been performed (R35). -/
  armSeen : Bool
  /-- Port `RES`: the value the last step put there, if it put one (R61, R89; notes/assumptions/9.md). -/
  res : Option Word
  /-- Port `REPORT`: the record the last step emitted, if it emitted one (R61, R147; notes/assumptions/10.md). -/
  report : Option Report
  /-- Port `CMD`: the command words of the run not yet performed, the next one first (R61, R9;
  notes/assumptions/1.md). -/
  cmd : List CmdWord
  /-- THE MODEL'S OWN: how many capture channels' worth of free values have been drawn (notes/assumptions/8.md). -/
  draws : Nat
deriving DecidableEq, Repr

/-- The faults of a step: none. "There is no fault outcome" (R8), the block has no exception channel (R160), so no
constructor stands here and no definition raises one. Safe: nothing is hidden by it. -/
inductive Fault where
deriving DecidableEq, Repr

/-- Why a step gives the operation no meaning (R8 (b)). Every one is safe: a refusal errs toward unprovable. -/
inductive Refusal where
  /-- An operation that has no meaning in the model; raised only by an arm of `exec`. None is, today. Safe. -/
  | notModelled (mnemonic : String)
  /-- The command word's `op` is none of the seventeen (R84, U5). Raised by `step`. Safe. -/
  | reservedOpcode
  /-- A bit of the command word that its format requires to be zero is one (R84, U5). Raised by `step`. Safe. -/
  | reservedBits
  /-- `INIT` when a channel has been armed: "callable only before arming" (R100, R185, U1). Raised by `INIT`. Safe. -/
  | initAfterArm
  /-- `ARM`, `DISARM`, `TSTAMP`, `ISRUN`, `SAMPLE` or `TICK` before `INIT` (R186, U2). Raised by those six. Safe. -/
  | beforeInit
deriving DecidableEq, Repr

/-- The cells of a capture channel that holds no value (R38, R186, U8): five free values, the `n`-th draw.
DESIGN CHOICE (notes/assumptions/5.md): a free value each, so nothing about them can be proved. -/
def Capture.unset (n : Nat) : Capture :=
  { cnt := Config.freeWord (2 * n)
    ts := Config.freeWord (2 * n + 1)
    run := Config.freeBit (3 * n)
    armed := Config.freeBit (3 * n + 1)
    pend := Config.freeBit (3 * n + 2) }

/-- An axis after reset (R38): all zero. -/
def AxisState.reset : AxisState := { cur := 0, prev := 0, acc := 0, vout := 0 }

/-- A sense line after reset (R38): input, level 0, no pull-up. -/
def SenseLine.reset : SenseLine := { dir := .input, out := false, pullup := false }

/-- The reset state of R38 for given parameters: `DEAD_TICKS` and `N_WINDOW` in `p`, `TS_INIT` in `ts0` and `ts1`.
The other capture cells hold no value (free values), no command waits. -/
def State.resetWith (p : Params) (ts0 ts1 : Word) : State :=
  { params := p
    chan := { c0 := { Capture.unset 0 with ts := ts0 }, c1 := { Capture.unset 1 with ts := ts1 } }
    axis := { x := AxisState.reset, y := AxisState.reset }
    btnLeft := false
    btnRight := false
    mode := .discharge
    cyc := 0
    line := { c0 := SenseLine.reset, c1 := SenseLine.reset }
    inited := false
    armSeen := false
    res := none
    report := none
    cmd := []
    draws := 2 }

/-- The machine right after reset (R38, R180), the open parameters as Config leaves them. -/
def State.reset : State := State.resetWith Config.params (Config.tsInit .c0) (Config.tsInit .c1)

end Sys2Proof.Machine
end

