-- ==== Sys2Proof/Machine/Operands.lean ====
section
/-! DEFINITION. The value functions of the operations: narrowing (spec/00_scope.md R6), operand reading
(spec/30_encoding.md R82), result forms (R89), and the arithmetic of spec/41_decoder.md R120 to R122. Integers are
computed exactly and narrowed at the end. -/

namespace Sys2Proof.Machine

/-- `u16(v)` and `s16(v)`: the 16-bit cell pattern congruent to `v` modulo `2^16` (R6). The two differ only in how the
pattern is read: `BitVec.toNat` for unsigned, `BitVec.toInt` for signed. -/
def narrow16 (v : Int) : Word := BitVec.ofInt 16 v

/-- `s8(v)`: the 8-bit cell pattern congruent to `v` modulo `2^8` (R6). -/
def narrow8 (v : Int) : Byte := BitVec.ofInt 8 v

/-- `ch(a)`: the capture channel of an axis (R7, R82; the spec's decision D4). -/
def channelOf : Axis → Channel
  | .x => .c0
  | .y => .c1

/-- Bit `c` of the mask of `CLK`: is channel `c` selected (R82)? -/
def maskSelects (m : BitVec 2) : Channel → Bool
  | .c0 => m.getLsbD 0
  | .c1 => m.getLsbD 1

/-- The left button is pressed: its pin level `b[0]` is low (R82, R145). -/
def leftPressed (b : BitVec 2) : Bool := !b.getLsbD 0

/-- The right button is pressed: its pin level `b[1]` is low (R82, R145). -/
def rightPressed (b : BitVec 2) : Bool := !b.getLsbD 1

/-- `topos(raw) = u16(raw - DEAD_TICKS)` (R120). -/
def topos (deadTicks raw : Word) : Word := narrow16 ((raw.toNat : Int) - deadTicks.toNat)

/-- `cdelta(p, q)`, the circular difference from the previous sample `p` to the current one `q`, in `-1024 .. 1023`
(R121). -/
def cdelta (p q : Word) : Int :=
  let m : Int := ((q.toNat : Int) - p.toNat) % 2 ^ Config.posBits
  if m ≤ 1023 then m else m - 2 ^ Config.posBits

/-- `sdiv(a, n)`: the quotient rounded toward zero (R122). -/
def sdiv (a : Int) (n : Nat) : Int := a.tdiv n

/-- The accumulator after a delta: X adds, Y subtracts, modulo `2^16` (R125). -/
def accumulated (a : Axis) (acc : Word) (d : Int) : Word :=
  match a with
  | .x => narrow16 (acc.toInt + d)
  | .y => narrow16 (acc.toInt - d)

/-- The velocity a flush makes of an accumulator: `s8(sdiv(acc, N_WINDOW))` (R126). -/
def velocity (acc : Word) (n : Nat) : Byte := narrow8 (sdiv acc.toInt n)

/-- A truth value on `RES`: `0x0001` or `0x0000` (R89, R104). -/
def resOfBool (b : Bool) : Word := if b then 1 else 0

/-- A delta on `RES`: 16-bit two's complement (R89, R124). -/
def resOfDelta (d : Int) : Word := narrow16 d

/-- A velocity on `RES`: sign-extended to 16 bits (R89, R126). -/
def resOfVelocity (v : Byte) : Word := v.signExtend 16

/-- The button mask `{btn_right, btn_left}`: `bm[0]` left, `bm[1]` right (R146, R147). -/
def buttonMask (left right : Bool) : BitVec 2 := BitVec.ofBool right ++ BitVec.ofBool left

/-- The 18-bit pattern of the `REPORT` port, `{bm[1:0], vy[7:0], vx[7:0]}` (R61, R89). -/
def Report.bits (r : Report) : BitVec 18 := r.bm ++ r.vy ++ r.vx

end Sys2Proof.Machine
end

