-- ==== Sys2Proof/Machine/Flags.lean ====
section
/-! DEFINITION. What the operations do to one capture channel: its flags `run`, `armed`, `pend` and the cells that
change with them (spec/10_state.md R21 to R25, spec/40_capture_timer.md R100 to R107). -/

namespace Sys2Proof.Machine

/-- The known, stopped configuration: count zero, not running, not armed, no edge pending; `ts` untouched (R100). -/
def Capture.stopped (k : Capture) : Capture :=
  { k with run := false, armed := false, pend := false, cnt := 0 }

/-- A fresh, zero-based window: stop, clear the pending edge, zero the count, enable capture, start; `ts` untouched
(R101). -/
def Capture.rearmed (k : Capture) : Capture :=
  { k with run := true, pend := false, cnt := 0, armed := true }

/-- Capture disabled and the counter stopped; the count, `ts` and `pend` keep their values (R102). -/
def Capture.disarmed (k : Capture) : Capture :=
  { k with armed := false, run := false }

/-- One count of a running counter, modulo `2^16`, with no other effect at the wrap; a stopped counter holds
(R105, R107). -/
def Capture.counted (k : Capture) : Capture :=
  if k.run then { k with cnt := narrow16 ((k.cnt.toNat : Int) + 1) } else k

/-- The capture interrupt, entry and return in one: the channel is disarmed, its counter stops, the count at the edge
is latched. It saves nothing, changes no mode and goes to no vector (R106 armed case, R163, R166, R167). -/
def Capture.interrupt (k : Capture) : Capture :=
  { k with armed := false, run := false, ts := k.cnt }

/-- A qualified rising edge: serviced when the channel is armed, else only remembered as pending (R106). -/
def Capture.edged (k : Capture) : Capture :=
  if k.armed then k.interrupt else { k with pend := true }

/-- The answer of the `isRunning` query; true at a discharge entry means a missed edge (R104, R108). -/
def Capture.isRunning (k : Capture) : Bool := k.run

end Sys2Proof.Machine
end

