-- ==== Sys2Proof/Machine/Ops.lean ====
section
/-! DEFINITION. The named operations over the state that the meanings are built from: the ports, the capture
channels, the decoder, the sense lines and the two phase entries (spec/40_capture_timer.md, 41_decoder.md,
42_sync_fsm.md). The block takes no exception (R160); what stands in the place of taking one is
`Capture.interrupt` (R166), reached through `State.edge`. -/

namespace Sys2Proof.Machine

/-! ### Ports -/

/-- Nothing on `RES` and `REPORT`: both are valid only in the step that produces them (R61, R147). -/
def State.quiet (s : State) : State := { s with res := none, report := none }

/-- `return v`: the value `v` on `RES` (R7, R89). -/
def State.answer (s : State) (v : Word) : State := { s with res := some v }

/-- `emit REPORT(vx, vy, bm)` (R7, R147): the velocities and the buttons as they stand. -/
def State.emitReport (s : State) : State :=
  { s with report := some { vx := s.axis.x.vout, vy := s.axis.y.vout, bm := buttonMask s.btnLeft s.btnRight } }

/-- The next command word on `CMD`, and the state without it (R9, R61). -/
def State.takeCommand (s : State) : Option (CmdWord × State) :=
  match s.cmd with
  | [] => none
  | w :: rest => some (w, { s with cmd := rest })

/-- `s` with one more command word, to be taken next. -/
def State.present (s : State) (w : CmdWord) : State := { s with cmd := w :: s.cmd }

/-- Go on in `s'` if the channels have been initialised, else refuse (R186). -/
def State.onceInited (s s' : State) : Host.Outcome State Fault Refusal :=
  if s.inited then .next s' else .refused .beforeInit

/-! ### Capture channels -/

/-- Apply `f` to the cells of channel `c`, the other channel untouched. -/
def State.onChannel (s : State) (c : Channel) (f : Capture → Capture) : State :=
  { s with chan := s.chan.set c (f (s.chan.get c)) }

/-- Both channels stopped, the ghost bit `inited` set (R100). -/
def State.initChannels (s : State) : State :=
  { s with chan := { c0 := s.chan.c0.stopped, c1 := s.chan.c1.stopped }, inited := true }

/-- Both channels armed in one step, the ghost bit `arm_seen` set (R101). -/
def State.armBoth (s : State) : State :=
  { s with chan := { c0 := s.chan.c0.rearmed, c1 := s.chan.c1.rearmed }, armSeen := true }

/-- Channel `c` disarmed (R102). -/
def State.disarm (s : State) (c : Channel) : State := s.onChannel c Capture.disarmed

/-- One reference clock period at the channels the mask selects (R105). -/
def State.clock (s : State) (m : BitVec 2) : State :=
  { s with
    chan :=
      { c0 := if maskSelects m .c0 then s.chan.c0.counted else s.chan.c0
        c1 := if maskSelects m .c1 then s.chan.c1.counted else s.chan.c1 } }

/-- A qualified rising edge at channel `c` (R106). -/
def State.edge (s : State) (c : Channel) : State := s.onChannel c Capture.edged

/-- The capture cells left without a value: ten fresh free values (R186; notes/assumptions/7.md). -/
def State.unsetChannels (s : State) : State :=
  { s with
    chan := { c0 := Capture.unset s.draws, c1 := Capture.unset (s.draws + 1) }
    draws := s.draws + 2 }

/-! ### Decoder -/

/-- Apply `f` to the cells of axis `a`, the other axis untouched. -/
def State.onAxis (s : State) (a : Axis) (f : AxisState → AxisState) : State :=
  { s with axis := s.axis.set a (f (s.axis.get a)) }

/-- The delta `d` added to the accumulator of axis `a`, inverted for Y (R125). -/
def State.accumulate (s : State) (a : Axis) (d : Int) : State :=
  s.onAxis a fun x => { x with acc := accumulated a x.acc d }

/-- The accumulator of axis `a` turned into a velocity and cleared (R126). -/
def State.flush (s : State) (a : Axis) : State :=
  s.onAxis a fun x => { x with vout := velocity x.acc s.params.nWindow, acc := 0 }

/-- The position update of axis `a`: the current sample becomes the previous one and the timestamp of the axis's own
channel the current one (R127, first two lines). -/
def State.shiftSample (s : State) (a : Axis) : State :=
  s.onAxis a fun x => { x with prev := x.cur, cur := topos s.params.deadTicks (s.chan.get (channelOf a)).ts }

/-- The position and velocity update of axis `a` (R127). -/
def State.sample (s : State) (a : Axis) : State :=
  let t := s.shiftSample a
  t.accumulate a (cdelta (t.axis.get a).prev (t.axis.get a).cur)

/-- The per-axis skip: a channel found running leaves its axis alone (R148). -/
def State.sampleUnless (s : State) (missed : Bool) (a : Axis) : State :=
  if missed then s else s.sample a

/-! ### Sense lines: the GPIO primitives of the block's boundary (R170) -/

/-- `setLow` (R170). -/
def SenseLine.setLow (l : SenseLine) : SenseLine := { l with out := false }

/-- `setHigh` (R170): the block never uses it. -/
def SenseLine.setHigh (l : SenseLine) : SenseLine := { l with out := true }

/-- `setDirectionOut` (R170). -/
def SenseLine.setDirectionOut (l : SenseLine) : SenseLine := { l with dir := .output }

/-- `setDirectionIn(pullup)` (R170). -/
def SenseLine.setDirectionIn (l : SenseLine) (pullup : Bool) : SenseLine := { l with dir := .input, pullup := pullup }

/-- What the block does to a sense line: drives a level, pulls it up, or leaves it to the device (R34, R61). -/
inductive LineDrive where
  | driven (high : Bool)
  | pulledUp
  | released
deriving DecidableEq, Repr

/-- The drive of a sense line, from its cells (R34, R61, R143, R144; notes/assumptions/15.md). -/
def SenseLine.drive (l : SenseLine) : LineDrive :=
  match l.dir, l.pullup with
  | .output, _ => .driven l.out
  | .input, true => .pulledUp
  | .input, false => .released

/-- Apply a GPIO primitive to both sense lines. -/
def State.onLines (s : State) (f : SenseLine → SenseLine) : State :=
  { s with line := { c0 := f s.line.c0, c1 := f s.line.c1 } }

/-- Both lines driven low as outputs, the level before the direction (R143). -/
def State.senseLow (s : State) : State := s.onLines fun l => l.setLow.setDirectionOut

/-- Both lines released to inputs without pull-up (R144). -/
def State.release (s : State) : State := s.onLines fun l => l.setDirectionIn false

/-! ### State machine -/

/-- The button pins sampled into the button state, active-low (R145). -/
def State.sampleButtons (s : State) (b : BitVec 2) : State :=
  { s with btnLeft := leftPressed b, btnRight := rightPressed b }

/-- One Discharge+Read pair counted; on every `N_WINDOW`-th both axes flushed, one report emitted and the count started
again (R146). -/
def State.cadence (s : State) : State :=
  let t : State := { s with cyc := s.cyc + 1 }
  if t.cyc.toNat = t.params.nWindow then { ((t.flush .x).flush .y).emitReport with cyc := 0 } else t

/-- `DISCHARGE(b)`, the discharge entry, in the source's order: query, disarm, drive low, re-arm, update the axes whose
channel was not found running, sample the buttons, count the pair (R142). -/
def State.dischargeEntry (s : State) (b : BitVec 2) : State :=
  let q0 := s.chan.c0.isRunning
  let q1 := s.chan.c1.isRunning
  let armed := ((s.disarm .c0).disarm .c1).senseLow.armBoth
  ((((armed.sampleUnless q0 .x).sampleUnless q1 .y).sampleButtons b).cadence)

/-- One pulse of the system tick: the entry actions of the phase `mode` names, then `mode` toggled (R141). -/
def State.tick (s : State) (b : BitVec 2) : State :=
  match s.mode with
  | .discharge => { s.dischargeEntry b with mode := .read }
  | .read => { s.release with mode := .discharge }

end Sys2Proof.Machine
end

