-- ==== Sys2Proof/Machine/CaptureTimer.lean ====
section
/-! DEFINITION. The meanings of the Capture Timer family (spec/40_capture_timer.md). -/

namespace Sys2Proof.Machine

/-- `INIT` (R100): refused once a channel has been armed. -/
def execInit (s : State) : Host.Outcome State Fault Refusal :=
  if s.armSeen then .refused .initAfterArm else .next s.quiet.initChannels

/-- `ARM` (R101). -/
def execArm (s : State) : Host.Outcome State Fault Refusal := s.onceInited s.quiet.armBoth

/-- `DISARM c` (R102). -/
def execDisarm (c : Channel) (s : State) : Host.Outcome State Fault Refusal := s.onceInited (s.quiet.disarm c)

/-- `TSTAMP c` (R103): the timestamp latch on `RES`. -/
def execTstamp (c : Channel) (s : State) : Host.Outcome State Fault Refusal :=
  s.onceInited (s.quiet.answer (s.chan.get c).ts)

/-- `ISRUN c` (R104): whether the counter is counting, on `RES`. -/
def execIsrun (c : Channel) (s : State) : Host.Outcome State Fault Refusal :=
  s.onceInited (s.quiet.answer (resOfBool (s.chan.get c).isRunning))

/-- `CLK m` (R105). It cannot be refused; before `INIT` it leaves the capture cells without a value (R186). -/
def execClk (m : BitVec 2) (s : State) : Host.Outcome State Fault Refusal :=
  .next (if s.inited then s.quiet.clock m else s.quiet.unsetChannels)

/-- `EDGE c` (R106). It cannot be refused; before `INIT` it leaves the capture cells without a value (R186). -/
def execEdge (c : Channel) (s : State) : Host.Outcome State Fault Refusal :=
  .next (if s.inited then s.quiet.edge c else s.quiet.unsetChannels)

end Sys2Proof.Machine
end

