-- ==== Sys2Proof/Machine/Decoder.lean ====
section
/-! DEFINITION. The meanings of the Position/Velocity Decoder family (spec/41_decoder.md). -/

namespace Sys2Proof.Machine

/-- `TOPOS v` (R123): the position sample of a raw timestamp on `RES`; legal before `INIT` (R186). -/
def execTopos (v : Word) (s : State) : Host.Outcome State Fault Refusal :=
  .next (s.quiet.answer (topos s.params.deadTicks v))

/-- `CDELTA p, q` (R124): the circular delta on `RES`; legal before `INIT` (R186). -/
def execCdelta (p q : Word) (s : State) : Host.Outcome State Fault Refusal :=
  .next (s.quiet.answer (resOfDelta (cdelta p q)))

/-- `ACCUM a, d` (R125): `d` in two's complement; legal before `INIT` (R186). -/
def execAccum (a : Axis) (d : Word) (s : State) : Host.Outcome State Fault Refusal :=
  .next (s.quiet.accumulate a d.toInt)

/-- `FLUSH a` (R126): the velocity stored and on `RES`, the accumulator cleared; legal before `INIT` (R186). -/
def execFlush (a : Axis) (s : State) : Host.Outcome State Fault Refusal :=
  let t := s.quiet.flush a
  .next (t.answer (resOfVelocity (t.axis.get a).vout))

/-- `SAMPLE a` (R127). -/
def execSample (a : Axis) (s : State) : Host.Outcome State Fault Refusal := s.onceInited (s.quiet.sample a)

end Sys2Proof.Machine
end

