-- ==== Sys2Proof/Machine/SyncFsm.lean ====
section
/-! DEFINITION. The meanings of the Synchronization State Machine family (spec/42_sync_fsm.md). -/

namespace Sys2Proof.Machine

/-- `TICK b` (R141): one atomic step (D12). -/
def execTick (b : BitVec 2) (s : State) : Host.Outcome State Fault Refusal := s.onceInited (s.quiet.tick b)

/-- `SENSELOW` (R143); legal before `INIT` (R186). -/
def execSenselow (s : State) : Host.Outcome State Fault Refusal := .next s.quiet.senseLow

/-- `RELEASE` (R144); legal before `INIT` (R186). -/
def execRelease (s : State) : Host.Outcome State Fault Refusal := .next s.quiet.release

/-- `BUTTONS b` (R145); legal before `INIT` (R186). -/
def execButtons (b : BitVec 2) (s : State) : Host.Outcome State Fault Refusal := .next (s.quiet.sampleButtons b)

/-- `CADENCE` (R146); legal before `INIT` (R186). -/
def execCadence (s : State) : Host.Outcome State Fault Refusal := .next s.quiet.cadence

end Sys2Proof.Machine
end

