-- ==== Sys2Proof/Machine/Dispatch.lean ====
section
/-! DEFINITION. One arm per operation (spec/30_encoding.md R83). -/

namespace Sys2Proof.Machine

def exec (i : Instr) (s : State) : Host.Outcome State Fault Refusal :=
  match i with
  | .init => Sys2Proof.Machine.execInit s
  | .arm => Sys2Proof.Machine.execArm s
  | .disarm c => Sys2Proof.Machine.execDisarm c s
  | .tstamp c => Sys2Proof.Machine.execTstamp c s
  | .isrun c => Sys2Proof.Machine.execIsrun c s
  | .clk m => Sys2Proof.Machine.execClk m s
  | .edge c => Sys2Proof.Machine.execEdge c s
  | .topos v => Sys2Proof.Machine.execTopos v s
  | .cdelta p q => Sys2Proof.Machine.execCdelta p q s
  | .accum a d => Sys2Proof.Machine.execAccum a d s
  | .flush a => Sys2Proof.Machine.execFlush a s
  | .sample a => Sys2Proof.Machine.execSample a s
  | .tick b => Sys2Proof.Machine.execTick b s
  | .senselow => Sys2Proof.Machine.execSenselow s
  | .release => Sys2Proof.Machine.execRelease s
  | .buttons b => Sys2Proof.Machine.execButtons b s
  | .cadence => Sys2Proof.Machine.execCadence s

end Sys2Proof.Machine
end

