-- ==== Sys2Proof/Machine/Step.lean ====
section
/-! DEFINITION. One step: the next command word of the run, decoded and performed (spec/00_scope.md R8, R9;
spec/20_memory.md R72). -/

namespace Sys2Proof.Machine

/-- One step. It takes the next command word and performs the operation the word encodes; a reserved word is refused
(R84). With no command waiting the block is idle and holds all state, and nothing is on its output ports
(R175; notes/assumptions/1.md). -/
def step (s : State) : Host.Outcome State Fault Refusal :=
  match s.takeCommand with
  | none => .next s.quiet
  | some (w, t) =>
    match decode w with
    | .instr i => exec i t
    | .reservedOpcode => .refused .reservedOpcode
    | .reservedBits => .refused .reservedBits

/-- `s` with the command word whose bits are `w` waiting as the next one; bits above `nbits` are zero
(notes/assumptions/2.md). -/
def State.withFetchWord (s : State) (nbits w : Nat) : State := s.present (BitVec.ofNat 40 (w % 2 ^ nbits))

end Sys2Proof.Machine
end

