-- ==== Sys2Proof/Machine/Assembler.lean ====
section
/-! DEFINITION. The assembler of spec/30_encoding.md: pseudo-operations (R88) and the text of one operation a line
(R87). Text is a list of characters. -/

namespace Sys2Proof.Machine

/-! ### Pseudo-operations (R88) -/

/-- `CLKS k, m`: `k` copies of `CLK m` (R88). -/
def clks (k : Nat) (m : BitVec 2) : List Instr := List.replicate k (.clk m)

/-- `DISARMALL`: `DISARM 0` then `DISARM 1` (R88). -/
def disarmAll : List Instr := [.disarm .c0, .disarm .c1]

/-- The sub-actions of `DISCHARGE b`, given the answers `q0`, `q1` of the two queries it begins with (R88, R142). It has
no encoding of its own; a test bench that has the answers can expand it. -/
def dischargeActions (q0 q1 : Bool) (b : BitVec 2) : List Instr :=
  [.isrun .c0, .isrun .c1, .disarm .c0, .disarm .c1, .senselow, .arm]
    ++ (if q0 then [] else [.sample .x]) ++ (if q1 then [] else [.sample .y]) ++ [.buttons b, .cadence]

/-! ### From a written operation to operations -/

/-- The axis an operand stands for: `X` or `0`, `Y` or `1` (R87). -/
def axisOfArg : Arg → Axis
  | .letter a => a
  | .num v => axisOfBit (v == 1)

/-- The operations a well-formed written operation stands for (R83, R88); none for an ill-formed one. -/
def expandCheckedSrc (s : Src) : Option (List Instr) :=
  match s.mnem with
  | .init => some [.init]
  | .arm => some [.arm]
  | .senselow => some [.senselow]
  | .release => some [.release]
  | .cadence => some [.cadence]
  | .disarmall => some disarmAll
  | .disarm => oneNum fun v => [.disarm (channelOfBit (v == 1))]
  | .tstamp => oneNum fun v => [.tstamp (channelOfBit (v == 1))]
  | .isrun => oneNum fun v => [.isrun (channelOfBit (v == 1))]
  | .edge => oneNum fun v => [.edge (channelOfBit (v == 1))]
  | .clk => if s.args = [] then some [.clk 3] else oneNum fun v => [.clk (BitVec.ofInt 2 v)]
  | .tick => if s.args = [] then some [.tick 3] else oneNum fun v => [.tick (BitVec.ofInt 2 v)]
  | .buttons => oneNum fun v => [.buttons (BitVec.ofInt 2 v)]
  | .topos => oneNum fun v => [.topos (BitVec.ofInt 16 v)]
  | .flush => oneAxis fun a => [.flush a]
  | .sample => oneAxis fun a => [.sample a]
  | .cdelta =>
    match s.args with
    | [.num p, .num q] => some [.cdelta (BitVec.ofInt 16 p) (BitVec.ofInt 16 q)]
    | _ => none
  | .accum =>
    match s.args with
    | [a, .num d] => some [.accum (axisOfArg a) (BitVec.ofInt 16 d)]
    | _ => none
  | .clks =>
    match s.args with
    | [.num k] => some (clks k.toNat 3)
    | [.num k, .num m] => some (clks k.toNat (BitVec.ofInt 2 m))
    | _ => none
where
  /-- One numeric operand. -/
  oneNum (f : Int → List Instr) : Option (List Instr) :=
    match s.args with
    | [.num v] => some (f v)
    | _ => none
  /-- One axis operand. -/
  oneAxis (f : Axis → List Instr) : Option (List Instr) :=
    match s.args with
    | [a] => some (f (axisOfArg a))
    | _ => none

/-- The operations a written operation stands for, if it is well formed. -/
def expandSrc (s : Src) : Option (List Instr) := if s.wf then expandCheckedSrc s else none

/-! ### From text to a written operation (R87) -/

/-- A mnemonic in upper case (R83, R87, R88). -/
def mnemName : Mnem → String
  | .init => "INIT"
  | .arm => "ARM"
  | .disarm => "DISARM"
  | .tstamp => "TSTAMP"
  | .isrun => "ISRUN"
  | .clk => "CLK"
  | .edge => "EDGE"
  | .topos => "TOPOS"
  | .cdelta => "CDELTA"
  | .accum => "ACCUM"
  | .flush => "FLUSH"
  | .sample => "SAMPLE"
  | .tick => "TICK"
  | .senselow => "SENSELOW"
  | .release => "RELEASE"
  | .buttons => "BUTTONS"
  | .cadence => "CADENCE"
  | .clks => "CLKS"
  | .disarmall => "DISARMALL"

/-- All mnemonics (R83, R88). -/
def allMnems : List Mnem :=
  [.init, .arm, .disarm, .tstamp, .isrun, .clk, .edge, .topos, .cdelta, .accum, .flush, .sample, .tick, .senselow,
   .release, .buttons, .cadence, .clks, .disarmall]

/-- The mnemonic a run of characters names. -/
def parseMnem (cs : List Char) : Option Mnem := allMnems.find? fun m => (mnemName m).toList == cs

/-- A space or a tab. DESIGN CHOICE (notes/assumptions/13.md). -/
def isBlank (c : Char) : Bool := c == ' ' || c == '\t'

/-- The characters without blanks at either end. -/
def trimBlanks (cs : List Char) : List Char := ((cs.dropWhile isBlank).reverse.dropWhile isBlank).reverse

/-- The value of a digit, decimal or hexadecimal, if the base has it. -/
def digitValue (base : Nat) (c : Char) : Option Nat :=
  let n := c.toNat
  let v :=
    if 48 ≤ n ∧ n ≤ 57 then n - 48
    else if 65 ≤ n ∧ n ≤ 70 then n - 55
    else if 97 ≤ n ∧ n ≤ 102 then n - 87
    else base
  if v < base then some v else none

/-- The number a run of digits writes, most significant first, after the digits of `acc`. -/
def parseDigits (base : Nat) : List Char → Nat → Option Nat
  | [], acc => some acc
  | c :: cs, acc => (digitValue base c).bind fun d => parseDigits base cs (acc * base + d)

/-- A number in decimal, or in hexadecimal with `0x` (R87). -/
def parseNat : List Char → Option Nat
  | [] => none
  | '0' :: 'x' :: [] => none
  | '0' :: 'x' :: cs => parseDigits 16 cs 0
  | cs => parseDigits 10 cs 0

/-- One operand: an axis letter, a number, or a negative decimal (R87). DESIGN CHOICE (notes/assumptions/13.md): every
number, the count of `CLKS` too, is written in decimal or in hexadecimal with `0x`, with as many digits as wanted; its
range is the concern of well-formedness. -/
def parseArg : List Char → Option Arg
  | ['X'] => some (.letter .x)
  | ['Y'] => some (.letter .y)
  | '-' :: [] => none
  | '-' :: cs => (parseDigits 10 cs 0).map fun n => .num (-(n : Int))
  | cs => (parseNat cs).map fun n => .num n

/-- The pieces between the separators. -/
def splitAt (sep : Char) : List Char → List (List Char)
  | [] => [[]]
  | c :: cs =>
    if c == sep then [] :: splitAt sep cs
    else
      match splitAt sep cs with
      | [] => [[c]]
      | p :: ps => (c :: p) :: ps

/-- The operands of a line, separated by commas; none when nothing is written (R87). -/
def parseArgs (cs : List Char) : Option (List Arg) :=
  if trimBlanks cs = [] then some [] else (splitAt ',' cs).mapM fun p => parseArg (trimBlanks p)

/-- One line: the comment from `;` dropped, then a mnemonic and its operands (R87). A line with nothing else on it
stands for no operation. -/
def assembleLine (line : List Char) : Option (List Instr) :=
  let text := trimBlanks (line.takeWhile (· != ';'))
  if text = [] then some []
  else
    (parseMnem (text.takeWhile fun c => !isBlank c)).bind fun m =>
      (parseArgs (text.dropWhile fun c => !isBlank c)).bind fun as => expandSrc { mnem := m, args := as }

/-- A program text, one operation a line, as command words in order (R87, R80). -/
def assemble (text : List Char) : Option (List CmdWord) :=
  ((splitAt '\n' text).mapM assembleLine).map fun is => is.flatten.map encode

end Sys2Proof.Machine
end

