-- ==== Sys2Proof/Safety.lean ====
section
/-! DEFINITION. The terms claims are stated in: who issues an operation, when an operation is inside the contract, the
invariants of spec/10_state.md R27 and R41, the duties and premises of spec/00_scope.md R10, and runs of several
operations. -/

namespace Sys2Proof.Machine

/-! ### Who issues an operation -/

/-- The agents that issue operations (R4 (a) to (d)). -/
inductive Agent where
  | referenceClock
  | device
  | tickDriver
  | commander
deriving DecidableEq, Repr

/-- Who issues an operation in the nominal system (R4). -/
def agentOf : Instr → Agent
  | .clk _ => .referenceClock
  | .edge _ => .device
  | .tick _ => .tickDriver
  | .init | .arm | .disarm _ | .tstamp _ | .isrun _ | .topos _ | .cdelta _ _ | .accum _ _ | .flush _ | .sample _
  | .senselow | .release | .buttons _ | .cadence => .commander

/-- The kinds of operation in the opcode map's column "kind" (R83). -/
inductive OpKind where
  | env
  | contract
  | sub
deriving DecidableEq, Repr

/-- The kind of an operation (R83). -/
def kindOf : Instr → OpKind
  | .clk _ | .edge _ | .tick _ => .env
  | .init | .arm | .disarm _ | .tstamp _ | .isrun _ | .topos _ | .cdelta _ _ | .accum _ _ | .flush _ => .contract
  | .sample _ | .senselow | .release | .buttons _ | .cadence => .sub

/-- Is it one of the four operations of a nominal run: `INIT`, `TICK`, `CLK`, `EDGE` (R41, R196)? -/
def isNominal : Instr → Bool
  | .init | .tick _ | .clk _ | .edge _ => true
  | .arm | .disarm _ | .tstamp _ | .isrun _ | .topos _ | .cdelta _ _ | .accum _ _ | .flush _ | .sample _
  | .senselow | .release | .buttons _ | .cadence => false

/-! ### The contract -/

/-- Is it one of the six operations that are refused before `INIT` (R186)? -/
def needsInit : Instr → Bool
  | .arm | .disarm _ | .tstamp _ | .isrun _ | .sample _ | .tick _ => true
  | .init | .clk _ | .edge _ | .topos _ | .cdelta _ _ | .accum _ _ | .flush _ | .senselow | .release | .buttons _
  | .cadence => false

/-- The operation is inside the contract in this state: no `INIT` after arming (R10 duty 2, R185), none of the six before
`INIT` (R10 duty 1, R186). -/
def InContract (i : Instr) (s : State) : Prop :=
  (i = .init → s.armSeen = false) ∧ (needsInit i = true → s.inited = true)

/-- Environment assumption ENV1: no rising edge on a line the block drives (R10 duty 4, R188). A premise on runs, built
into no step. -/
def Env1 (i : Instr) (s : State) : Prop := ∀ c, i = .edge c → (s.line.get c).dir = .input

/-! ### Invariants -/

/-- Between the enable and the run control of both channels there is no difference (R27). -/
def State.armedIsRun (s : State) : Prop :=
  s.chan.c0.armed = s.chan.c0.run ∧ s.chan.c1.armed = s.chan.c1.run

/-- What every single operation preserves (R27, R41 (a) and (b)): once initialised, `armed` equals `run`; the window
counter stays below `N_WINDOW`; nothing is armed before `INIT`. -/
def State.Inv (s : State) : Prop :=
  (s.inited = true → s.armedIsRun) ∧ s.cyc.toNat < s.params.nWindow ∧ (s.armSeen = true → s.inited = true)

/-- Both lines driven low as outputs (R34, R41 (c)). -/
def State.linesLow (s : State) : Prop :=
  s.line.c0.drive = .driven false ∧ s.line.c1.drive = .driven false

/-- Both lines released: inputs without pull-up (R34, R41 (d)). -/
def State.linesReleased (s : State) : Prop :=
  s.line.c0.drive = .released ∧ s.line.c1.drive = .released

/-- What the nominal operations preserve (R41 (c) and (d)): with `mode` Read the channels have been armed and the lines
are low; with `mode` Discharge, once a `TICK` has armed the channels, the lines are released. -/
def State.PhaseInv (s : State) : Prop :=
  (s.mode = .read → s.inited = true ∧ s.armSeen = true ∧ s.linesLow) ∧
  (s.mode = .discharge → s.armSeen = true → s.linesReleased)

/-- The accumulators stay within what the window's discharge entries so far can have added, 1024 each (R121, R132). -/
def State.AccInv (s : State) : Prop :=
  s.axis.x.acc.toInt.natAbs ≤ 1024 * s.cyc.toNat ∧ s.axis.y.acc.toInt.natAbs ≤ 1024 * s.cyc.toNat

/-! ### Runs and comparisons -/

/-- The next state of an outcome, if it is one. -/
def nextOf (o : Host.Outcome State Fault Refusal) : Option State :=
  match o with
  | .next s => some s
  | .fault _ => none
  | .refused _ => none

/-- The refusal of an outcome, if it is one. -/
def refusalOf (o : Host.Outcome State Fault Refusal) : Option Refusal :=
  match o with
  | .next _ => none
  | .fault _ => none
  | .refused r => some r

/-- The operations of a list performed in order, up to the first that is not (R9, R68). -/
def execAll : List Instr → State → Host.Outcome State Fault Refusal
  | [], s => .next s
  | i :: is, s =>
    match exec i s with
    | .next t => execAll is t
    | .fault f => .fault f
    | .refused r => .refused r

/-- The operation opens a fresh window on the channels: `ARM`, or a `TICK` that enters the discharge phase
(R101, R142). -/
def arms (i : Instr) (s : State) : Prop := i = .arm ∨ (∃ b, i = .tick b) ∧ s.mode = .discharge

/-- No operation of the run opens a fresh window: the run stays "until the next `ARM`" (R70, R109). -/
def neverArms : List Instr → State → Prop
  | [], _ => True
  | i :: is, s => ¬ arms i s ∧ ∀ t, exec i s = .next t → neverArms is t

/-- How many `CLK` operations of the list select channel `c` (R109). -/
def clocksFor (c : Channel) : List Instr → Nat
  | [] => 0
  | i :: is =>
    (match i with
      | .clk m => if maskSelects m c then 1 else 0
      | .init | .arm | .disarm _ | .tstamp _ | .isrun _ | .edge _ | .topos _ | .cdelta _ _ | .accum _ _ | .flush _
      | .sample _ | .tick _ | .senselow | .release | .buttons _ | .cadence => 0) + clocksFor c is

/-- `k` Discharge+Read pairs, two ticks each (R12, R151). -/
def tickPairs (k : Nat) (b : BitVec 2) : List Instr := (List.replicate k [Instr.tick b, Instr.tick b]).flatten

/-- An outcome with a change applied to its next state. -/
def mapNext (f : State → State) (o : Host.Outcome State Fault Refusal) : Host.Outcome State Fault Refusal :=
  match o with
  | .next s => .next (f s)
  | .fault x => .fault x
  | .refused r => .refused r

/-- The state with both pending-edge flags cleared: what remains when `pend` is not looked at (R25). -/
def State.erasePend (s : State) : State :=
  { s with chan := { c0 := { s.chan.c0 with pend := false }, c1 := { s.chan.c1 with pend := false } } }

/-- The state with the sense-line cells as after reset: what remains when they are not looked at (R34; D21). -/
def State.eraseLines (s : State) : State := { s with line := { c0 := SenseLine.reset, c1 := SenseLine.reset } }

end Sys2Proof.Machine
end

