-- ==== Sys2Proof/Certificates/Slice0/Obligations.lean ====
section
/-! DEFINITION. The statements for the provers. Each docstring names the rule of spec/ it formalises, and says where a
clause is a decision of the spec's own (D<n>) or a choice of the model (log <n>). A result statement writes the next
state out in full, so it is the instruction's completion and its frame as well. In all of them `res := none` and
`report := none` say that the step put nothing on the port: the form is the model's choice (log 9, 10), the spec leaves
`RES` without a meaning there (R89) and stores no record (R147). -/

open Sys2Proof
open Sys2Proof.Machine

/-! ### Steps and words -/

/-- A step performs the operation its command word encodes, and in no other step (R8, R72). -/
def Obligations.StepRunsDecodedCommand : Prop :=
  ∀ (s : State) (w : CmdWord) (rest : List CmdWord) (i : Instr),
    s.cmd = w :: rest → decode w = .instr i → step s = exec i { s with cmd := rest }

/-- With no command waiting the block is idle and holds all state (R175); that such a step exists, and that it leaves
nothing on the output ports, is the model's choice (log 1, 9, 10). -/
def Obligations.IdleStepHoldsAllState : Prop :=
  ∀ s : State, s.cmd = [] → step s = .next { s with res := none, report := none }

/-- A word whose `op` no row of the map has, and a word of a known `op` with a forbidden bit set, are refused, each by
its own name (R84; D22). -/
def Obligations.ReservedWordsAreRefusedByName : Prop :=
  ∀ (s : State) (w : CmdWord) (rest : List CmdWord), s.cmd = w :: rest →
    ((∀ r ∈ opcodeTable, opField r.value ≠ opField w) → step s = .refused .reservedOpcode) ∧
    (∀ r ∈ opcodeTable, opField r.value = opField w → r.selects w = false → step s = .refused .reservedBits)

/-- The decoder reads an operation of a mnemonic from a word exactly when the word selects that mnemonic's row of the
opcode map, `(W AND mask) = match` (R83; D2). -/
def Obligations.DecodedExactlyWhenItsRowIsSelected : Prop :=
  ∀ (w : CmdWord) (m : Mnem),
    (∃ i, decode w = .instr i ∧ i.mnem = m) ↔ ∃ r ∈ opcodeTable, r.mnem = m ∧ r.selects w = true

/-- The rows of the opcode map are disjoint: no word selects two (R83). -/
def Obligations.OpcodeRowsAreDisjoint : Prop :=
  ∀ (w : CmdWord), ∀ r ∈ opcodeTable, ∀ r' ∈ opcodeTable, r.selects w = true → r'.selects w = true → r = r'

/-- Decoding the encoding of any operation, every operand at every value, gives the operation (R81, R82, R83). -/
def Obligations.DecodeInvertsEncode : Prop := ∀ i : Instr, decode (encode i) = .instr i

/-- Every word that decodes is the encoding of the operation it decodes to: each operation has one word (R81 to R84). -/
def Obligations.EncodeInvertsDecode : Prop := ∀ (w : CmdWord) (i : Instr), decode w = .instr i → encode i = w

/-- Command words stored as bytes, five each, most significant first, read back as the words (R62; D23). -/
def Obligations.CommandBytesReadBack : Prop :=
  ∀ ws : List CmdWord, wordsOfBytes (ws.flatMap bytesOfWord) = some ws

/-- Every operation, written out, is well formed and assembles to itself (R87). -/
def Obligations.WrittenOperationAssemblesToItself : Prop :=
  ∀ i : Instr, i.wf = true ∧ expandSrc i.src = some [i]

/-- Words written out from the formats of R81 and the map of R83, the spec's own examples of R87, R123, R124 and R125
among them, decode to the operation they stand for. -/
def Obligations.WordsFromTheEncodingTables : Prop :=
  decode 0x1107FF0000 = .instr (.cdelta 2047 0) ∧ decode 0x120000FFCE = .instr (.accum .x (-50)) ∧
  decode 0x1200010003 = .instr (.accum .y 3) ∧ decode 0x1000000864 = .instr (.topos 2148) ∧
  decode 0x0300000001 = .instr (.disarm .c1) ∧ decode 0x2000000002 = .instr (.tick 2) ∧
  decode 0x0000000000 = .reservedOpcode ∧ decode 0x0100000001 = .reservedBits

/-! ### Reset and invariants -/

/-- What reset leaves, for every admitted value of the parameters (R38; the zero values are the spec's decisions D10 and
D21, log 16; TS_INIT is open, D9); and `State.reset` is such a state, with the design default window (log 3, 4, 6). The
empty ports, `res := none`, `report := none` and `cmd := []`, are the model's choice (log 9, 10, 1): the spec gives the
ports no reset value. The other capture cells and `draws` are not said (log 5, 8). -/
def Obligations.ResetLeavesTheTablesValues : Prop :=
  (∀ (p : Params) (ts0 ts1 : Word), ∃ k0 k1 : Capture, k0.ts = ts0 ∧ k1.ts = ts1 ∧
    ∃ n, State.resetWith p ts0 ts1 =
      { params := p, chan := { c0 := k0, c1 := k1 }
        axis := { x := { cur := 0, prev := 0, acc := 0, vout := 0 }, y := { cur := 0, prev := 0, acc := 0, vout := 0 } }
        btnLeft := false, btnRight := false, mode := .discharge, cyc := 0
        line :=
          { c0 := { dir := .input, out := false, pullup := false }, c1 := { dir := .input, out := false, pullup := false } }
        inited := false, armSeen := false, res := none, report := none, cmd := [], draws := n }) ∧
  ∃ p ts0 ts1, p.nWindow = 40 ∧ State.reset = State.resetWith p ts0 ts1

/-- The invariants hold right after reset, whatever the parameters (R27, R41, R132). -/
def Obligations.ResetMeetsTheInvariants : Prop :=
  (∀ (p : Params) (ts0 ts1 : Word),
    (State.resetWith p ts0 ts1).Inv ∧ (State.resetWith p ts0 ts1).PhaseInv ∧ (State.resetWith p ts0 ts1).AccInv) ∧
  State.reset.Inv ∧ State.reset.PhaseInv ∧ State.reset.AccInv

/-- Every step keeps the invariant: `armed` equals `run` once initialised, `cyc` stays below `N_WINDOW`, nothing is armed
before `INIT`. Every single operation preserves (a) and (b) (R27, R41; both the spec's own derivations). -/
def Obligations.EveryStepKeepsTheInvariant : Prop :=
  ∀ s t : State, s.Inv → step s = .next t → t.Inv

/-- The nominal operations keep the phase invariant: lines low and channels armed while `mode` is Read, lines released
while it is Discharge after the first tick (R41 (c) and (d), the spec's own derivation). -/
def Obligations.NominalOperationsKeepThePhaseInvariant : Prop :=
  ∀ (i : Instr) (s t : State), isNominal i = true → s.PhaseInv → exec i s = .next t → t.PhaseInv

/-- With `N_WINDOW ≤ 31` overflow is impossible on the state machine's path: in every state the accumulators can be in,
each circular difference adds exactly, without wrap, and every nominal operation keeps them within 1024 per discharge
entry of the window (R132, R191). -/
def Obligations.ShortWindowsNeverOverflow : Prop :=
  ∀ (i : Instr) (s t : State), isNominal i = true → s.params.nWindow ≤ 31 → s.Inv → s.AccInv →
    exec i s = .next t →
      t.AccInv ∧
      ∀ p q : Word,
        (accumulated .x s.axis.x.acc (cdelta p q)).toInt = s.axis.x.acc.toInt + cdelta p q ∧
        (accumulated .y s.axis.y.acc (cdelta p q)).toInt = s.axis.y.acc.toInt - cdelta p q

/-- No step changes a parameter of the run (R5: no operation changes any of them). -/
def Obligations.NoStepChangesAParameter : Prop :=
  ∀ s t : State, step s = .next t → t.params = s.params

/-- Assumption ENV1 excludes every edge in the discharge phase: while the lines are driven low no `EDGE` satisfies it
(R188; R10 duty 4). -/
def Obligations.Env1ExcludesEdgesInTheDischargePhase : Prop :=
  ∀ (i : Instr) (s : State), s.PhaseInv → s.mode = .read → Env1 i s → ∀ c, i ≠ .edge c

/-! ### The contract -/

/-- An operation completes exactly when it is inside the contract: `INIT` before any arming, the six channel commands
after `INIT`, everything else always (R8, R10, R185, R186; D25). -/
def Obligations.OperationCompletesExactlyInsideTheContract : Prop :=
  ∀ (i : Instr) (s : State), (∃ t, exec i s = .next t) ↔ InContract i s

/-- Outside the contract the refusal has the name of the broken duty (R100, R185, R186; D25). -/
def Obligations.BrokenDutiesAreRefusedByName : Prop :=
  (∀ s : State, s.armSeen = true → exec .init s = .refused .initAfterArm) ∧
  (∀ (i : Instr) (s : State), needsInit i = true → s.inited = false → exec i s = .refused .beforeInit)

/-! ### Capture Timer -/

/-- `INIT` before arming puts both channels into the stopped configuration, `ts` untouched, and nothing else changes
but the ghost bit (R100; the refusal after arming is D25's). -/
def Obligations.InitStopsBothChannels : Prop :=
  ∀ s : State, s.armSeen = false →
    exec .init s = .next
      { s with
        chan :=
          { c0 := { s.chan.c0 with cnt := 0, run := false, armed := false, pend := false }
            c1 := { s.chan.c1 with cnt := 0, run := false, armed := false, pend := false } }
        inited := true, res := none, report := none }

/-- `ARM` opens a fresh, zero-based window on both channels at once, writes no `ts`, and touches nothing else (R101). -/
def Obligations.ArmOpensAFreshWindow : Prop :=
  ∀ s : State, s.inited = true →
    exec .arm s = .next
      { s with
        chan :=
          { c0 := { s.chan.c0 with cnt := 0, run := true, armed := true, pend := false }
            c1 := { s.chan.c1 with cnt := 0, run := true, armed := true, pend := false } }
        armSeen := true, res := none, report := none }

/-- `DISARM c` clears `armed` and `run` of channel `c` and nothing else; the count holds (R102; D8). -/
def Obligations.DisarmStopsOneChannel : Prop :=
  ∀ (c : Channel) (s : State), s.inited = true →
    exec (.disarm c) s = .next
      { s with
        chan := s.chan.set c { s.chan.get c with armed := false, run := false }, res := none, report := none }

/-- `TSTAMP c` puts `ts[c]` on `RES` and changes nothing (R103). -/
def Obligations.TstampReturnsTheLatch : Prop :=
  ∀ (c : Channel) (s : State), s.inited = true →
    exec (.tstamp c) s = .next { s with res := some (s.chan.get c).ts, report := none }

/-- `ISRUN c` puts `0x0001` on `RES` when the counter of channel `c` is counting, else `0x0000`, and changes nothing
(R104). -/
def Obligations.IsrunReturnsWhetherCounting : Prop :=
  ∀ (c : Channel) (s : State), s.inited = true →
    exec (.isrun c) s = .next
      { s with res := some (if (s.chan.get c).run = true then 0x0001 else 0x0000), report := none }

/-- `CLK m` counts each selected running counter up by one modulo `2^16` and does nothing else, at the wrap neither
(R105, R107; the mask is D5's). -/
def Obligations.ClkCountsSelectedRunningCounters : Prop :=
  ∀ (m : BitVec 2) (s : State), s.inited = true →
    exec (.clk m) s = .next
      { s with
        chan :=
          { c0 := if m.getLsbD 0 = true ∧ s.chan.c0.run = true then { s.chan.c0 with cnt := s.chan.c0.cnt + 1 }
              else s.chan.c0
            c1 := if m.getLsbD 1 = true ∧ s.chan.c1.run = true then { s.chan.c1 with cnt := s.chan.c1.cnt + 1 }
              else s.chan.c1 }
        res := none, report := none }

/-- `EDGE c` on an armed channel latches the count, disarms and stops the channel; on a disarmed one it only sets
`pend[c]` (R106; the pending flag is D7's). Nothing else changes. -/
def Obligations.EdgeLatchesOrPends : Prop :=
  ∀ (c : Channel) (s : State), s.inited = true →
    exec (.edge c) s = .next
      { s with
        chan := s.chan.set c
          (if (s.chan.get c).armed = true then
            { s.chan.get c with armed := false, run := false, ts := (s.chan.get c).cnt }
          else { s.chan.get c with pend := true })
        res := none, report := none }

/-- Before `INIT`, `CLK` and `EDGE` are performed and leave every cell outside the capture channels unchanged (R186; D25).
What the capture cells then hold is free (log 7). -/
def Obligations.EventsBeforeInitLeaveTheRestUnchanged : Prop :=
  ∀ (i : Instr) (s : State), (∃ m, i = .clk m) ∨ (∃ c, i = .edge c) → s.inited = false →
    ∃ (k : PerChannel Capture) (n : Nat),
      exec i s = .next { s with chan := k, draws := n, res := none, report := none }

/-! ### Decoder -/

/-- `TOPOS v` puts `u16(v - DEAD_TICKS)` on `RES`, no clamp, and changes no state (R120, R123). -/
def Obligations.ToposSubtractsTheDeadTime : Prop :=
  ∀ (v : Word) (s : State), ∃ r : Word,
    exec (.topos v) s = .next { s with res := some r, report := none } ∧
    r.toNat = (v.toNat + 65536 - s.params.deadTicks.toNat) % 65536

/-- `CDELTA p, q` puts the circular difference on `RES` as a two's-complement value and changes no state: with
`m = (q - p) mod 2048` the value is `m` up to 1023 and `m - 2048` from 1024; it is the sign extension of the low 11 bits
of `q - p`, and bits 15 to 11 of the operands never matter (R121, R124). -/
def Obligations.CdeltaIsTheSignedCircularDifference : Prop :=
  ∀ (p q : Word) (s : State), ∃ r : Word,
    exec (.cdelta p q) s = .next { s with res := some r, report := none } ∧
    (((q.toNat : Int) - p.toNat) % 2048 ≤ 1023 → r.toInt = ((q.toNat : Int) - p.toNat) % 2048) ∧
    (1024 ≤ ((q.toNat : Int) - p.toNat) % 2048 → r.toInt = ((q.toNat : Int) - p.toNat) % 2048 - 2048) ∧
    -1024 ≤ r.toInt ∧ r.toInt ≤ 1023 ∧ r.toInt = ((q - p).setWidth 11).toInt ∧
    ∀ p' q' : Word, p'.setWidth 11 = p.setWidth 11 → q'.setWidth 11 = q.setWidth 11 →
      exec (.cdelta p' q') s = exec (.cdelta p q) s

/-- `ACCUM a, d` adds the delta into the accumulator of X, subtracts it from that of Y, modulo `2^16`, and changes
nothing else (R125; the wrap is D16's, the one inversion D27's). -/
def Obligations.AccumAddsAndInvertsY : Prop :=
  ∀ (d : Word) (s : State),
    exec (.accum .x d) s = .next
      { s with axis := { s.axis with x := { s.axis.x with acc := s.axis.x.acc + d } }, res := none, report := none } ∧
    exec (.accum .y d) s = .next
      { s with axis := { s.axis with y := { s.axis.y with acc := s.axis.y.acc - d } }, res := none, report := none }

/-- `FLUSH a` divides the accumulator by `N_WINDOW` toward zero, `sign(acc) * floor(|acc| / N)`, keeps the low 8 bits as
the velocity, clears the accumulator, puts the sign-extended velocity on `RES`, and changes nothing else (R122, R126;
rounding is D17's, narrowing D15's). -/
def Obligations.FlushDividesTowardZeroAndClears : Prop :=
  ∀ (a : Axis) (s : State), ∃ v : Byte,
    v = BitVec.ofInt 8
      ((s.axis.get a).acc.toInt.sign * (((s.axis.get a).acc.toInt.natAbs / s.params.nWindow : Nat) : Int)) ∧
    exec (.flush a) s = .next
      { s with
        axis := s.axis.set a { s.axis.get a with vout := v, acc := 0 }
        res := some (BitVec.ofInt 16 v.toInt), report := none }

/-- `SAMPLE a` shifts the current sample into the previous one, takes the new one from the timestamp of the axis's own
channel less the dead-time, and adds the circular difference into the accumulator, subtracted for Y; nothing else
changes (R127 with R120, R121, R125). -/
def Obligations.SampleUpdatesPositionAndAccumulator : Prop :=
  ∀ s : State, s.inited = true →
    (∃ d : Word, d.toInt = ((s.chan.c0.ts - s.params.deadTicks - s.axis.x.cur).setWidth 11).toInt ∧
      exec (.sample .x) s = .next
        { s with
          axis :=
            { s.axis with
              x := { s.axis.x with prev := s.axis.x.cur, cur := s.chan.c0.ts - s.params.deadTicks, acc := s.axis.x.acc + d } }
          res := none, report := none }) ∧
    (∃ d : Word, d.toInt = ((s.chan.c1.ts - s.params.deadTicks - s.axis.y.cur).setWidth 11).toInt ∧
      exec (.sample .y) s = .next
        { s with
          axis :=
            { s.axis with
              y := { s.axis.y with prev := s.axis.y.cur, cur := s.chan.c1.ts - s.params.deadTicks, acc := s.axis.y.acc - d } }
          res := none, report := none })

/-! ### State machine -/

/-- `SENSELOW` drives both lines low as outputs and changes nothing else (R143; D21). -/
def Obligations.SenselowDrivesBothLinesLow : Prop :=
  ∀ s : State,
    exec .senselow s = .next
      { s with
        line :=
          { c0 := { s.line.c0 with dir := .output, out := false }
            c1 := { s.line.c1 with dir := .output, out := false } }
        res := none, report := none }

/-- `RELEASE` makes both lines inputs without pull-up; it keeps the level cells and touches no capture channel, no
decoder cell and no button (R144). -/
def Obligations.ReleaseMakesBothLinesInputs : Prop :=
  ∀ s : State,
    exec .release s = .next
      { s with
        line :=
          { c0 := { s.line.c0 with dir := .input, pullup := false }
            c1 := { s.line.c1 with dir := .input, pullup := false } }
        res := none, report := none }

/-- `BUTTONS b` samples both pins, active-low, overwriting the last sample, and changes nothing else (R145). -/
def Obligations.ButtonsSampleActiveLow : Prop :=
  ∀ (b : BitVec 2) (s : State), ∃ l r : Bool,
    (l = true ↔ b.getLsbD 0 = false) ∧ (r = true ↔ b.getLsbD 1 = false) ∧
    exec (.buttons b) s = .next { s with btnLeft := l, btnRight := r, res := none, report := none }

/-- `CADENCE` counts one pair; on the `N_WINDOW`-th it flushes both axes, emits one report of the flushed velocities and
the current buttons, and starts the count again. The inner flushes put nothing on `RES` (R126, R146, R147; the place of
the count is D14's, the bit order D20's). -/
def Obligations.CadenceCountsAndReports : Prop :=
  ∀ s : State,
    ((s.cyc + 1).toNat ≠ s.params.nWindow →
      exec .cadence s = .next { s with cyc := s.cyc + 1, res := none, report := none }) ∧
    ((s.cyc + 1).toNat = s.params.nWindow → ∃ (vx vy : Byte) (bm : BitVec 2),
      vx = BitVec.ofInt 8 (s.axis.x.acc.toInt.sign * ((s.axis.x.acc.toInt.natAbs / s.params.nWindow : Nat) : Int)) ∧
      vy = BitVec.ofInt 8 (s.axis.y.acc.toInt.sign * ((s.axis.y.acc.toInt.natAbs / s.params.nWindow : Nat) : Int)) ∧
      bm.getLsbD 0 = s.btnLeft ∧ bm.getLsbD 1 = s.btnRight ∧
      exec .cadence s = .next
        { s with
          axis := { x := { s.axis.x with vout := vx, acc := 0 }, y := { s.axis.y with vout := vy, acc := 0 } }
          cyc := 0, res := none, report := some { vx := vx, vy := vy, bm := bm } })

/-- `TICK b` with `mode` Read is the read entry: it releases the lines, sets `mode` to Discharge, ignores `b` and
changes nothing else (R141, R144). -/
def Obligations.TickInReadReleasesTheLines : Prop :=
  ∀ (b : BitVec 2) (s : State), s.inited = true → s.mode = .read →
    exec (.tick b) s = .next
      { s with
        line :=
          { c0 := { s.line.c0 with dir := .input, pullup := false }
            c1 := { s.line.c1 with dir := .input, pullup := false } }
        mode := .discharge, res := none, report := none }

/-- `TICK b` with `mode` Discharge is the sequence of its sub-actions performed one by one, each by its own operation,
the two skips decided by the two `ISRUN` answers taken first, and then `mode` set to Read (R88, R141, R142; the place of
`CADENCE` is D14's). -/
def Obligations.TickInDischargeIsItsSubActions : Prop :=
  ∀ (b : BitVec 2) (s : State), s.inited = true → s.mode = .discharge →
    ∃ t, execAll (dischargeActions s.chan.c0.run s.chan.c1.run b) s = .next t ∧
      exec (.tick b) s = .next { t with mode := .read }

/-- A missed edge skips the update of its own axis only, and only for this cycle: the axis keeps `cur` and `prev`, and
its accumulator gets nothing; the other axis is updated on its own query; both channels are re-armed, the buttons sampled,
the window counter advanced whatever was missed (R148). The clauses about the window's end rest on R126 and R146 and on the
spec's decision D14, which counts the pair in this same entry, after the updates: there the accumulator of a missed axis
is flushed as it stood, that of an updated axis with its delta, `cyc` starts again, and a report comes exactly then. -/
def Obligations.MissedEdgeSkipsItsOwnAxisOnly : Prop :=
  ∀ (b : BitVec 2) (s : State), s.inited = true → s.mode = .discharge → ∃ t, exec (.tick b) s = .next t ∧
    (∀ a, (s.chan.get (channelOf a)).run = true →
      (t.axis.get a).cur = (s.axis.get a).cur ∧ (t.axis.get a).prev = (s.axis.get a).prev ∧
      ((s.cyc + 1).toNat ≠ s.params.nWindow → t.axis.get a = s.axis.get a) ∧
      ((s.cyc + 1).toNat = s.params.nWindow →
        (t.axis.get a).acc = 0 ∧ (t.axis.get a).vout = velocity (s.axis.get a).acc s.params.nWindow)) ∧
    (∀ a, (s.chan.get (channelOf a)).run = false →
      (t.axis.get a).prev = (s.axis.get a).cur ∧
      (t.axis.get a).cur = topos s.params.deadTicks (s.chan.get (channelOf a)).ts ∧
      ((s.cyc + 1).toNat ≠ s.params.nWindow →
        (t.axis.get a).acc =
          accumulated a (s.axis.get a).acc (cdelta (s.axis.get a).cur (topos s.params.deadTicks (s.chan.get (channelOf a)).ts)) ∧
        (t.axis.get a).vout = (s.axis.get a).vout) ∧
      ((s.cyc + 1).toNat = s.params.nWindow →
        (t.axis.get a).acc = 0 ∧
        (t.axis.get a).vout =
          velocity
            (accumulated a (s.axis.get a).acc
              (cdelta (s.axis.get a).cur (topos s.params.deadTicks (s.chan.get (channelOf a)).ts)))
            s.params.nWindow)) ∧
    (∀ c, (t.chan.get c).armed = true ∧ (t.chan.get c).run = true ∧ (t.chan.get c).cnt = 0 ∧
      (t.chan.get c).pend = false ∧ (t.chan.get c).ts = (s.chan.get c).ts) ∧
    (t.btnLeft = true ↔ b.getLsbD 0 = false) ∧ (t.btnRight = true ↔ b.getLsbD 1 = false) ∧
    ((s.cyc + 1).toNat ≠ s.params.nWindow → t.cyc = s.cyc + 1 ∧ t.report = none) ∧
    ((s.cyc + 1).toNat = s.params.nWindow → t.cyc = 0 ∧ t.report.isSome = true) ∧
    t.mode = .read

/-! ### Whole-machine rules -/

/-- `mode` is toggled by every `TICK` that is performed, and by nothing else (R36, R140; that `mode` names the phase
the next tick enters is D11's). -/
def Obligations.ModeIsToggledByTickAlone : Prop :=
  ∀ (i : Instr) (s t : State), exec i s = .next t →
    ((∃ b, i = .tick b) → (t.mode = .read ↔ s.mode = .discharge)) ∧ ((∀ b, i ≠ .tick b) → t.mode = s.mode)

/-- Once initialised, a timestamp changes only by a serviced edge on its own channel, and then to the count at the edge
(R22, R37, R106; resolution C6). -/
def Obligations.TimestampIsWrittenOnlyByItsServicedEdge : Prop :=
  ∀ (i : Instr) (s t : State) (c : Channel), s.inited = true → exec i s = .next t →
    (t.chan.get c).ts ≠ (s.chan.get c).ts →
      i = .edge c ∧ (s.chan.get c).armed = true ∧ (t.chan.get c).ts = (s.chan.get c).cnt

/-- Each capture-channel cell changes only by the operations that own it, once the channels are initialised (R20, R37;
the owners' list is the spec's table). -/
def Obligations.ChannelCellsChangeOnlyByTheirOwners : Prop :=
  ∀ (i : Instr) (s t : State) (c : Channel), s.inited = true → exec i s = .next t →
    ((t.chan.get c).cnt ≠ (s.chan.get c).cnt → (∃ m, i = .clk m) ∨ i = .arm ∨ i = .init ∨ ∃ b, i = .tick b) ∧
    ((t.chan.get c).run ≠ (s.chan.get c).run →
      i = .arm ∨ i = .disarm c ∨ i = .init ∨ i = .edge c ∨ ∃ b, i = .tick b) ∧
    ((t.chan.get c).armed ≠ (s.chan.get c).armed →
      i = .arm ∨ i = .disarm c ∨ i = .init ∨ i = .edge c ∨ ∃ b, i = .tick b) ∧
    ((t.chan.get c).pend ≠ (s.chan.get c).pend → i = .edge c ∨ i = .arm ∨ i = .init ∨ ∃ b, i = .tick b)

/-- Each decoder, button, window and sense-line cell changes only by the operations that own it, `TICK` standing for
the operations it is composed of; so neither the capture context nor the clock ever writes one (R20, R37, R168). -/
def Obligations.OtherCellsChangeOnlyByTheirOwners : Prop :=
  ∀ (i : Instr) (s t : State), exec i s = .next t →
    (∀ a, ((t.axis.get a).cur ≠ (s.axis.get a).cur ∨ (t.axis.get a).prev ≠ (s.axis.get a).prev) →
      i = .sample a ∨ ∃ b, i = .tick b) ∧
    (∀ a, (t.axis.get a).acc ≠ (s.axis.get a).acc →
      (∃ d, i = .accum a d) ∨ i = .flush a ∨ i = .sample a ∨ i = .cadence ∨ ∃ b, i = .tick b) ∧
    (∀ a, (t.axis.get a).vout ≠ (s.axis.get a).vout → i = .flush a ∨ i = .cadence ∨ ∃ b, i = .tick b) ∧
    ((t.btnLeft ≠ s.btnLeft ∨ t.btnRight ≠ s.btnRight) → (∃ b, i = .buttons b) ∨ ∃ b, i = .tick b) ∧
    (t.cyc ≠ s.cyc → i = .cadence ∨ ∃ b, i = .tick b) ∧
    (t.line ≠ s.line → i = .senselow ∨ i = .release ∨ ∃ b, i = .tick b)

/-- No operation's result, and no cell but the flags themselves, depends on the pending-edge flags: two states that
differ only in `pend` go to outcomes that differ at most in `pend` (R25; D7). -/
def Obligations.PendingFlagsAreNeverObserved : Prop :=
  ∀ (i : Instr) (s t : State), s.erasePend = t.erasePend →
    mapNext State.erasePend (exec i s) = mapNext State.erasePend (exec i t)

/-- No operation's result, and no cell but the lines' own, depends on the sense-line cells (D21: no rule reads these
cells). -/
def Obligations.SenseLineCellsAreNeverObserved : Prop :=
  ∀ (i : Instr) (s t : State), s.eraseLines = t.eraseLines →
    mapNext State.eraseLines (exec i s) = mapNext State.eraseLines (exec i t)

/-- `EDGE 0` and `EDGE 1` commute; `CLK` and `EDGE c` do not: on an armed running channel the count latched differs by the
`CLK` that precedes the edge (R68 (3) and (4), R106). -/
def Obligations.EdgesCommuteAndClocksDoNot : Prop :=
  (∀ s : State, s.inited = true → ∃ t,
    execAll [.edge .c0, .edge .c1] s = .next t ∧ execAll [.edge .c1, .edge .c0] s = .next t) ∧
  (∀ (s : State) (c : Channel), s.inited = true → (s.chan.get c).armed = true → (s.chan.get c).run = true →
    ∃ t u, execAll [.clk 3, .edge c] s = .next t ∧ execAll [.edge c, .clk 3] s = .next u ∧
      (t.chan.get c).ts = (s.chan.get c).cnt + 1 ∧ (u.chan.get c).ts = (s.chan.get c).cnt)

/-- Legal words that change nothing: `CLK 0`; `CLK m` when no selected channel runs; `DISARM c` on a stopped channel;
`EDGE c` on a disarmed channel whose edge is already pending; `RELEASE` on released lines; `ARM` right after `ARM`
(R85). -/
def Obligations.LegalWordsThatChangeNothing : Prop :=
  (∀ (i : Instr) (s : State), s.inited = true →
    i = .clk 0 ∨ (∃ m, i = .clk m ∧ ∀ c, maskSelects m c = true → (s.chan.get c).run = false) ∨
      (∃ c, i = .disarm c ∧ (s.chan.get c).run = false ∧ (s.chan.get c).armed = false) ∨
      (∃ c, i = .edge c ∧ (s.chan.get c).armed = false ∧ (s.chan.get c).pend = true) ∨
      (i = .release ∧ s.linesReleased) →
    exec i s = .next { s with res := none, report := none }) ∧
  (∀ s t : State, exec .arm s = .next t → exec .arm t = .next t)

/-! ### Runs -/

/-- After a channel is disarmed, by `DISARM` or by its own serviced edge, and until the next arming, no operation changes
its timestamp and it stays disarmed, so every read returns one value and each arming yields at most one capture (R70,
R102, R163). -/
def Obligations.DisarmedChannelKeepsItsTimestamp : Prop :=
  ∀ (is : List Instr) (s t : State) (c : Channel), s.inited = true → (s.chan.get c).armed = false →
    neverArms is s → execAll is s = .next t →
      (t.chan.get c).ts = (s.chan.get c).ts ∧ (t.chan.get c).armed = false

/-- A channel that was armed and is found running later, with no arming in between, received no edge in between; and the
query answers false after `DISARM c` whatever happened, so it must be made before (R108). -/
def Obligations.StillRunningMeansNoEdgeCame : Prop :=
  (∀ (is : List Instr) (s t : State) (c : Channel), s.inited = true → (s.chan.get c).armed = (s.chan.get c).run →
    neverArms is s → execAll is s = .next t → (t.chan.get c).run = true → Instr.edge c ∉ is) ∧
  (∀ (s : State) (c : Channel), s.inited = true → ∃ t, execAll [.disarm c, .isrun c] s = .next t ∧ t.res = some 0)

/-- In one window, from an `ARM` on, the timestamp of a channel is what it was or a count between 0 and the number of
`CLK` operations that selected the channel, modulo `2^16`; and once it is latched the channel is disarmed (R109, the
spec's own derivation). -/
def Obligations.CapturedCountIsBoundedByTheClocks : Prop :=
  ∀ (is : List Instr) (s u t : State) (c : Channel), exec .arm s = .next u → neverArms is u → execAll is u = .next t →
    ((t.chan.get c).ts = (s.chan.get c).ts ∨
      ∃ n, n ≤ clocksFor c is ∧ (t.chan.get c).ts = BitVec.ofNat 16 n ∧ (t.chan.get c).armed = false)

/-- From the start of a window, `k` pairs of ticks and one more tick, all with one pin sample and with nothing between
them, are all performed, and that last tick emits a report exactly when it is the window's `N_WINDOW`-th discharge entry
(R146, R142; that the pair is counted at its discharge entry is D14's). Runs with `CLK` and `EDGE` between the ticks are
not said here: by OtherCellsChangeOnlyByTheirOwners neither of them writes `cyc`. -/
def Obligations.OneReportPerWindowOfTickPairs : Prop :=
  ∀ (k : Nat) (b : BitVec 2) (s : State), s.inited = true → s.mode = .discharge → s.cyc = 0 → k < s.params.nWindow →
    ∃ t, execAll (tickPairs k b ++ [.tick b]) s = .next t ∧ (t.report.isSome = true ↔ k + 1 = s.params.nWindow)

/-- After `INIT` from reset, the first discharge entry consumes `TS_INIT`: it is the current sample less the dead-time,
and the delta against 0 is accumulated, inverted for Y (R183, the spec's own derivation; windows longer than one entry,
so that the accumulator can be read afterwards). -/
def Obligations.FirstDischargeEntryConsumesTsInit : Prop :=
  ∀ (p : Params) (ts0 ts1 : Word) (b : BitVec 2), p.nWindow ≠ 1 → ∃ t,
    execAll [.init, .tick b] (State.resetWith p ts0 ts1) = .next t ∧
    t.axis.x.prev = 0 ∧ t.axis.x.cur = ts0 - p.deadTicks ∧
    t.axis.x.acc.toInt = ((ts0 - p.deadTicks).setWidth 11).toInt ∧
    t.axis.y.prev = 0 ∧ t.axis.y.cur = ts1 - p.deadTicks ∧
    t.axis.y.acc.toInt = -((ts1 - p.deadTicks).setWidth 11).toInt

/-- Flushing after `k ≤ N_WINDOW` equal deltas `d` that 8 bits can hold returns `k * d / N_WINDOW` rounded toward zero
for X and its negation for Y, stores it and clears the accumulator; with `k = N_WINDOW` that is `d` itself, and with
fewer the divisor is still `N_WINDOW` (R131 with R122 and R126; rounding is D17's). Y's result is held in 8 bits: at
`d = -128` the quotient 128 wraps to -128 by R126 and the spec's decision D15, which R131 does not say. -/
def Obligations.WindowOfEqualDeltasReturnsTheDelta : Prop :=
  ∀ (k : Nat) (d : Word) (s : State), k ≤ s.params.nWindow → -128 ≤ d.toInt → d.toInt ≤ 127 →
    (s.axis.x.acc = 0 → ∃ t, execAll (List.replicate k (.accum .x d) ++ [.flush .x]) s = .next t ∧
      t.axis.x.vout.toInt = ((k : Int) * d.toInt).tdiv s.params.nWindow ∧ t.axis.x.acc = 0 ∧
      t.res = some (BitVec.ofInt 16 t.axis.x.vout.toInt) ∧
      (k = s.params.nWindow → t.axis.x.vout.toInt = d.toInt)) ∧
    (s.axis.y.acc = 0 → ∃ t, execAll (List.replicate k (.accum .y d) ++ [.flush .y]) s = .next t ∧
      t.axis.y.vout = BitVec.ofInt 8 (-(((k : Int) * d.toInt).tdiv s.params.nWindow)) ∧ t.axis.y.acc = 0 ∧
      t.res = some (BitVec.ofInt 16 t.axis.y.vout.toInt) ∧
      (k = s.params.nWindow → t.axis.y.vout = BitVec.ofInt 8 (-d.toInt)))

/-! ### Laws of the circular difference -/

/-- Range, antisymmetry except at half the circle where both directions give -1024, and zero on equal samples
(R129 (1) to (3)). -/
def Obligations.CircularDifferenceIsAntisymmetric : Prop :=
  ∀ p q : Word,
    (-1024 ≤ cdelta p q ∧ cdelta p q ≤ 1023) ∧ cdelta p p = 0 ∧
    (((q.toNat : Int) - p.toNat) % 2048 ≠ 1024 → cdelta p q = -cdelta q p) ∧
    (((q.toNat : Int) - p.toNat) % 2048 = 1024 → cdelta p q = -1024 ∧ cdelta q p = -1024)

/-- Translation invariance, and additivity on small moves (R129 (5) and (6), the spec's own derivations). -/
def Obligations.CircularDifferenceIsTranslationInvariant : Prop :=
  (∀ p q k : Word, cdelta (p + k) (q + k) = cdelta p q) ∧
  (∀ p q r : Word, (cdelta p q + cdelta q r).natAbs ≤ 1023 → cdelta p r = cdelta p q + cdelta q r)

/-- The dead-time cancels in every difference of two samples (R123 and the argument of D18). -/
def Obligations.DeadTimeCancelsInDifferences : Prop :=
  ∀ deadTicks u v : Word, cdelta (topos deadTicks u) (topos deadTicks v) = cdelta u v
end

