-- ==== Sys2Proof/Laws/Decode.lean ====
section
/-! SUPPORT. The bits and the fields of a command word put together from its fields, a word from its own fields, masks
field by field, and the bits of the operands. -/

namespace Sys2Proof

theorem getLsbD_mkWord (op : BitVec 8) (a b : Word) (i : Nat) :
    (mkWord op a b).getLsbD i =
      if i < 16 then b.getLsbD i else if i < 32 then a.getLsbD (i - 16) else op.getLsbD (i - 32) := by
  have h : (mkWord op a b).getLsbD i = (op ++ a ++ b : BitVec (8 + 16 + 16)).getLsbD i := rfl
  rw [h, BitVec.getLsbD_append, BitVec.getLsbD_append]
  by_cases h1 : i < 16
  · simp [h1]
  · by_cases h2 : i < 32
    · simp [h1, h2, show i - 16 < 16 by omega]
    · simp [h1, h2, show ¬ (i - 16 < 16) by omega, show i - 16 - 16 = i - 32 by omega]

@[simp] theorem opField_mkWord (op : BitVec 8) (a b : Word) : opField (mkWord op a b) = op := by
  apply BitVec.eq_of_getLsbD_eq
  intro i hi
  simp [opField, getLsbD_mkWord, hi, show ¬ (32 + i < 16) by omega]

@[simp] theorem aField_mkWord (op : BitVec 8) (a b : Word) : aField (mkWord op a b) = a := by
  apply BitVec.eq_of_getLsbD_eq
  intro i hi
  simp [aField, getLsbD_mkWord, hi, show 16 + i < 32 by omega]

@[simp] theorem bField_mkWord (op : BitVec 8) (a b : Word) : bField (mkWord op a b) = b := by
  apply BitVec.eq_of_getLsbD_eq
  intro i hi
  simp [bField, getLsbD_mkWord, hi]

/-- A command word is its three fields (R80). -/
theorem mkWord_fields (w : CmdWord) : mkWord (opField w) (aField w) (bField w) = w := by
  apply BitVec.eq_of_getLsbD_eq
  intro i hi
  simp only [opField, aField, bField, getLsbD_mkWord, BitVec.getLsbD_extractLsb']
  split
  · simp_all
  · split
    · simp [show i - 16 < 16 by omega, show 16 + (i - 16) = i by omega]
    · simp [show i - 32 < 8 by omega, show 32 + (i - 32) = i by omega]

/-- A mask acts on each field by itself. -/
theorem mkWord_and (o p : BitVec 8) (a b c d : Word) :
    mkWord o a b &&& mkWord p c d = mkWord (o &&& p) (a &&& c) (b &&& d) := by
  apply BitVec.eq_of_getLsbD_eq
  intro i hi
  simp only [BitVec.getLsbD_and, getLsbD_mkWord]
  split <;> [rfl; split <;> rfl]

@[simp] theorem channelOfBit_bit (c : Channel) : channelOfBit c.bit[0] = c := by cases c <;> rfl

@[simp] theorem axisOfBit_bit (a : Axis) : axisOfBit a.bit[0] = a := by cases a <;> rfl

@[simp] theorem Channel.bit_high (c : Channel) : c.bit.extractLsb' 1 15 = 0#15 := by cases c <;> rfl

@[simp] theorem Axis.bit_high (a : Axis) : a.bit.extractLsb' 1 15 = 0#15 := by cases a <;> rfl

@[simp] theorem mask_high (m : BitVec 2) : (m.setWidth 16).extractLsb' 2 14 = 0#14 := by revert m; decide

@[simp] theorem mask_low (m : BitVec 2) : (m.setWidth 16).extractLsb' 0 2 = m := by revert m; decide

end Sys2Proof
end

