-- ==== Sys2Proof/Laws/State.lean ====
section
/-! SUPPORT. One lemma per field per named update of the state, so that no proof unfolds a record update; and the cells
of a pair after a write. -/

namespace Sys2Proof

variable {α : Type}

@[simp] theorem PerChannel.get_set_self (p : PerChannel α) (c : Channel) (v : α) : (p.set c v).get c = v := by
  cases c <;> rfl

theorem PerChannel.get_set_of_ne (p : PerChannel α) {c d : Channel} (h : d ≠ c) (v : α) :
    (p.set c v).get d = p.get d := by
  cases c <;> cases d <;> first | rfl | exact absurd rfl h

@[simp] theorem PerChannel.get_c0 (p : PerChannel α) : p.get .c0 = p.c0 := rfl
@[simp] theorem PerChannel.get_c1 (p : PerChannel α) : p.get .c1 = p.c1 := rfl
@[simp] theorem PerChannel.set_c0 (p : PerChannel α) (v : α) : p.set .c0 v = { p with c0 := v } := rfl
@[simp] theorem PerChannel.set_c1 (p : PerChannel α) (v : α) : p.set .c1 v = { p with c1 := v } := rfl

@[simp] theorem PerAxis.get_set_self (p : PerAxis α) (a : Axis) (v : α) : (p.set a v).get a = v := by
  cases a <;> rfl

theorem PerAxis.get_set_of_ne (p : PerAxis α) {a b : Axis} (h : b ≠ a) (v : α) : (p.set a v).get b = p.get b := by
  cases a <;> cases b <;> first | rfl | exact absurd rfl h

@[simp] theorem PerAxis.set_set (p : PerAxis α) (a : Axis) (u v : α) : (p.set a u).set a v = p.set a v := by
  cases a <;> rfl

@[simp] theorem PerAxis.get_x (p : PerAxis α) : p.get .x = p.x := rfl
@[simp] theorem PerAxis.get_y (p : PerAxis α) : p.get .y = p.y := rfl
@[simp] theorem PerAxis.set_x (p : PerAxis α) (v : α) : p.set .x v = { p with x := v } := rfl
@[simp] theorem PerAxis.set_y (p : PerAxis α) (v : α) : p.set .y v = { p with y := v } := rfl

theorem Params.nWindow_pos (p : Params) : 1 ≤ p.nWindow := Nat.succ_pos _

theorem Params.nWindow_le (p : Params) : p.nWindow ≤ 64 := p.window.isLt

end Sys2Proof

namespace Sys2Proof.Machine

/-! ### `State.quiet` -/

@[simp] theorem State.quiet_params (s : State) : (s.quiet).params = s.params := rfl
@[simp] theorem State.quiet_chan (s : State) : (s.quiet).chan = s.chan := rfl
@[simp] theorem State.quiet_axis (s : State) : (s.quiet).axis = s.axis := rfl
@[simp] theorem State.quiet_btnLeft (s : State) : (s.quiet).btnLeft = s.btnLeft := rfl
@[simp] theorem State.quiet_btnRight (s : State) : (s.quiet).btnRight = s.btnRight := rfl
@[simp] theorem State.quiet_mode (s : State) : (s.quiet).mode = s.mode := rfl
@[simp] theorem State.quiet_cyc (s : State) : (s.quiet).cyc = s.cyc := rfl
@[simp] theorem State.quiet_line (s : State) : (s.quiet).line = s.line := rfl
@[simp] theorem State.quiet_inited (s : State) : (s.quiet).inited = s.inited := rfl
@[simp] theorem State.quiet_armSeen (s : State) : (s.quiet).armSeen = s.armSeen := rfl
@[simp] theorem State.quiet_res (s : State) : (s.quiet).res = none := rfl
@[simp] theorem State.quiet_report (s : State) : (s.quiet).report = none := rfl
@[simp] theorem State.quiet_cmd (s : State) : (s.quiet).cmd = s.cmd := rfl
@[simp] theorem State.quiet_draws (s : State) : (s.quiet).draws = s.draws := rfl

/-! ### `State.answer` -/

@[simp] theorem State.answer_params (s : State) (v : Word) : (s.answer v).params = s.params := rfl
@[simp] theorem State.answer_chan (s : State) (v : Word) : (s.answer v).chan = s.chan := rfl
@[simp] theorem State.answer_axis (s : State) (v : Word) : (s.answer v).axis = s.axis := rfl
@[simp] theorem State.answer_btnLeft (s : State) (v : Word) : (s.answer v).btnLeft = s.btnLeft := rfl
@[simp] theorem State.answer_btnRight (s : State) (v : Word) : (s.answer v).btnRight = s.btnRight := rfl
@[simp] theorem State.answer_mode (s : State) (v : Word) : (s.answer v).mode = s.mode := rfl
@[simp] theorem State.answer_cyc (s : State) (v : Word) : (s.answer v).cyc = s.cyc := rfl
@[simp] theorem State.answer_line (s : State) (v : Word) : (s.answer v).line = s.line := rfl
@[simp] theorem State.answer_inited (s : State) (v : Word) : (s.answer v).inited = s.inited := rfl
@[simp] theorem State.answer_armSeen (s : State) (v : Word) : (s.answer v).armSeen = s.armSeen := rfl
@[simp] theorem State.answer_res (s : State) (v : Word) : (s.answer v).res = some v := rfl
@[simp] theorem State.answer_report (s : State) (v : Word) : (s.answer v).report = s.report := rfl
@[simp] theorem State.answer_cmd (s : State) (v : Word) : (s.answer v).cmd = s.cmd := rfl
@[simp] theorem State.answer_draws (s : State) (v : Word) : (s.answer v).draws = s.draws := rfl

/-! ### `State.emitReport` -/

@[simp] theorem State.emitReport_params (s : State) : (s.emitReport).params = s.params := rfl
@[simp] theorem State.emitReport_chan (s : State) : (s.emitReport).chan = s.chan := rfl
@[simp] theorem State.emitReport_axis (s : State) : (s.emitReport).axis = s.axis := rfl
@[simp] theorem State.emitReport_btnLeft (s : State) : (s.emitReport).btnLeft = s.btnLeft := rfl
@[simp] theorem State.emitReport_btnRight (s : State) : (s.emitReport).btnRight = s.btnRight := rfl
@[simp] theorem State.emitReport_mode (s : State) : (s.emitReport).mode = s.mode := rfl
@[simp] theorem State.emitReport_cyc (s : State) : (s.emitReport).cyc = s.cyc := rfl
@[simp] theorem State.emitReport_line (s : State) : (s.emitReport).line = s.line := rfl
@[simp] theorem State.emitReport_inited (s : State) : (s.emitReport).inited = s.inited := rfl
@[simp] theorem State.emitReport_armSeen (s : State) : (s.emitReport).armSeen = s.armSeen := rfl
@[simp] theorem State.emitReport_res (s : State) : (s.emitReport).res = s.res := rfl
@[simp] theorem State.emitReport_report (s : State) :
    (s.emitReport).report = some { vx := s.axis.x.vout, vy := s.axis.y.vout, bm := buttonMask s.btnLeft s.btnRight } := rfl
@[simp] theorem State.emitReport_cmd (s : State) : (s.emitReport).cmd = s.cmd := rfl
@[simp] theorem State.emitReport_draws (s : State) : (s.emitReport).draws = s.draws := rfl

/-! ### `State.present` -/

@[simp] theorem State.present_params (s : State) (w : CmdWord) : (s.present w).params = s.params := rfl
@[simp] theorem State.present_chan (s : State) (w : CmdWord) : (s.present w).chan = s.chan := rfl
@[simp] theorem State.present_axis (s : State) (w : CmdWord) : (s.present w).axis = s.axis := rfl
@[simp] theorem State.present_btnLeft (s : State) (w : CmdWord) : (s.present w).btnLeft = s.btnLeft := rfl
@[simp] theorem State.present_btnRight (s : State) (w : CmdWord) : (s.present w).btnRight = s.btnRight := rfl
@[simp] theorem State.present_mode (s : State) (w : CmdWord) : (s.present w).mode = s.mode := rfl
@[simp] theorem State.present_cyc (s : State) (w : CmdWord) : (s.present w).cyc = s.cyc := rfl
@[simp] theorem State.present_line (s : State) (w : CmdWord) : (s.present w).line = s.line := rfl
@[simp] theorem State.present_inited (s : State) (w : CmdWord) : (s.present w).inited = s.inited := rfl
@[simp] theorem State.present_armSeen (s : State) (w : CmdWord) : (s.present w).armSeen = s.armSeen := rfl
@[simp] theorem State.present_res (s : State) (w : CmdWord) : (s.present w).res = s.res := rfl
@[simp] theorem State.present_report (s : State) (w : CmdWord) : (s.present w).report = s.report := rfl
@[simp] theorem State.present_cmd (s : State) (w : CmdWord) : (s.present w).cmd = w :: s.cmd := rfl
@[simp] theorem State.present_draws (s : State) (w : CmdWord) : (s.present w).draws = s.draws := rfl

/-! ### `State.onChannel` -/

@[simp] theorem State.onChannel_params (s : State) (c : Channel) (f : Capture → Capture) :
    (s.onChannel c f).params = s.params := rfl
@[simp] theorem State.onChannel_chan (s : State) (c : Channel) (f : Capture → Capture) :
    (s.onChannel c f).chan = s.chan.set c (f (s.chan.get c)) := rfl
@[simp] theorem State.onChannel_axis (s : State) (c : Channel) (f : Capture → Capture) :
    (s.onChannel c f).axis = s.axis := rfl
@[simp] theorem State.onChannel_btnLeft (s : State) (c : Channel) (f : Capture → Capture) :
    (s.onChannel c f).btnLeft = s.btnLeft := rfl
@[simp] theorem State.onChannel_btnRight (s : State) (c : Channel) (f : Capture → Capture) :
    (s.onChannel c f).btnRight = s.btnRight := rfl
@[simp] theorem State.onChannel_mode (s : State) (c : Channel) (f : Capture → Capture) :
    (s.onChannel c f).mode = s.mode := rfl
@[simp] theorem State.onChannel_cyc (s : State) (c : Channel) (f : Capture → Capture) :
    (s.onChannel c f).cyc = s.cyc := rfl
@[simp] theorem State.onChannel_line (s : State) (c : Channel) (f : Capture → Capture) :
    (s.onChannel c f).line = s.line := rfl
@[simp] theorem State.onChannel_inited (s : State) (c : Channel) (f : Capture → Capture) :
    (s.onChannel c f).inited = s.inited := rfl
@[simp] theorem State.onChannel_armSeen (s : State) (c : Channel) (f : Capture → Capture) :
    (s.onChannel c f).armSeen = s.armSeen := rfl
@[simp] theorem State.onChannel_res (s : State) (c : Channel) (f : Capture → Capture) :
    (s.onChannel c f).res = s.res := rfl
@[simp] theorem State.onChannel_report (s : State) (c : Channel) (f : Capture → Capture) :
    (s.onChannel c f).report = s.report := rfl
@[simp] theorem State.onChannel_cmd (s : State) (c : Channel) (f : Capture → Capture) :
    (s.onChannel c f).cmd = s.cmd := rfl
@[simp] theorem State.onChannel_draws (s : State) (c : Channel) (f : Capture → Capture) :
    (s.onChannel c f).draws = s.draws := rfl

/-! ### `State.initChannels` -/

@[simp] theorem State.initChannels_params (s : State) : (s.initChannels).params = s.params := rfl
@[simp] theorem State.initChannels_chan (s : State) :
    (s.initChannels).chan = { c0 := s.chan.c0.stopped, c1 := s.chan.c1.stopped } := rfl
@[simp] theorem State.initChannels_axis (s : State) : (s.initChannels).axis = s.axis := rfl
@[simp] theorem State.initChannels_btnLeft (s : State) : (s.initChannels).btnLeft = s.btnLeft := rfl
@[simp] theorem State.initChannels_btnRight (s : State) : (s.initChannels).btnRight = s.btnRight := rfl
@[simp] theorem State.initChannels_mode (s : State) : (s.initChannels).mode = s.mode := rfl
@[simp] theorem State.initChannels_cyc (s : State) : (s.initChannels).cyc = s.cyc := rfl
@[simp] theorem State.initChannels_line (s : State) : (s.initChannels).line = s.line := rfl
@[simp] theorem State.initChannels_inited (s : State) : (s.initChannels).inited = true := rfl
@[simp] theorem State.initChannels_armSeen (s : State) : (s.initChannels).armSeen = s.armSeen := rfl
@[simp] theorem State.initChannels_res (s : State) : (s.initChannels).res = s.res := rfl
@[simp] theorem State.initChannels_report (s : State) : (s.initChannels).report = s.report := rfl
@[simp] theorem State.initChannels_cmd (s : State) : (s.initChannels).cmd = s.cmd := rfl
@[simp] theorem State.initChannels_draws (s : State) : (s.initChannels).draws = s.draws := rfl

/-! ### `State.armBoth` -/

@[simp] theorem State.armBoth_params (s : State) : (s.armBoth).params = s.params := rfl
@[simp] theorem State.armBoth_chan (s : State) :
    (s.armBoth).chan = { c0 := s.chan.c0.rearmed, c1 := s.chan.c1.rearmed } := rfl
@[simp] theorem State.armBoth_axis (s : State) : (s.armBoth).axis = s.axis := rfl
@[simp] theorem State.armBoth_btnLeft (s : State) : (s.armBoth).btnLeft = s.btnLeft := rfl
@[simp] theorem State.armBoth_btnRight (s : State) : (s.armBoth).btnRight = s.btnRight := rfl
@[simp] theorem State.armBoth_mode (s : State) : (s.armBoth).mode = s.mode := rfl
@[simp] theorem State.armBoth_cyc (s : State) : (s.armBoth).cyc = s.cyc := rfl
@[simp] theorem State.armBoth_line (s : State) : (s.armBoth).line = s.line := rfl
@[simp] theorem State.armBoth_inited (s : State) : (s.armBoth).inited = s.inited := rfl
@[simp] theorem State.armBoth_armSeen (s : State) : (s.armBoth).armSeen = true := rfl
@[simp] theorem State.armBoth_res (s : State) : (s.armBoth).res = s.res := rfl
@[simp] theorem State.armBoth_report (s : State) : (s.armBoth).report = s.report := rfl
@[simp] theorem State.armBoth_cmd (s : State) : (s.armBoth).cmd = s.cmd := rfl
@[simp] theorem State.armBoth_draws (s : State) : (s.armBoth).draws = s.draws := rfl

/-! ### `State.clock` -/

@[simp] theorem State.clock_params (s : State) (m : BitVec 2) : (s.clock m).params = s.params := rfl
@[simp] theorem State.clock_chan (s : State) (m : BitVec 2) :
    (s.clock m).chan =
      { c0 := if maskSelects m .c0 then s.chan.c0.counted else s.chan.c0
        c1 := if maskSelects m .c1 then s.chan.c1.counted else s.chan.c1 } := rfl
@[simp] theorem State.clock_axis (s : State) (m : BitVec 2) : (s.clock m).axis = s.axis := rfl
@[simp] theorem State.clock_btnLeft (s : State) (m : BitVec 2) : (s.clock m).btnLeft = s.btnLeft := rfl
@[simp] theorem State.clock_btnRight (s : State) (m : BitVec 2) : (s.clock m).btnRight = s.btnRight := rfl
@[simp] theorem State.clock_mode (s : State) (m : BitVec 2) : (s.clock m).mode = s.mode := rfl
@[simp] theorem State.clock_cyc (s : State) (m : BitVec 2) : (s.clock m).cyc = s.cyc := rfl
@[simp] theorem State.clock_line (s : State) (m : BitVec 2) : (s.clock m).line = s.line := rfl
@[simp] theorem State.clock_inited (s : State) (m : BitVec 2) : (s.clock m).inited = s.inited := rfl
@[simp] theorem State.clock_armSeen (s : State) (m : BitVec 2) : (s.clock m).armSeen = s.armSeen := rfl
@[simp] theorem State.clock_res (s : State) (m : BitVec 2) : (s.clock m).res = s.res := rfl
@[simp] theorem State.clock_report (s : State) (m : BitVec 2) : (s.clock m).report = s.report := rfl
@[simp] theorem State.clock_cmd (s : State) (m : BitVec 2) : (s.clock m).cmd = s.cmd := rfl
@[simp] theorem State.clock_draws (s : State) (m : BitVec 2) : (s.clock m).draws = s.draws := rfl

/-! ### `State.unsetChannels` -/

@[simp] theorem State.unsetChannels_params (s : State) : (s.unsetChannels).params = s.params := rfl
@[simp] theorem State.unsetChannels_chan (s : State) :
    (s.unsetChannels).chan = { c0 := Capture.unset s.draws, c1 := Capture.unset (s.draws + 1) } := rfl
@[simp] theorem State.unsetChannels_axis (s : State) : (s.unsetChannels).axis = s.axis := rfl
@[simp] theorem State.unsetChannels_btnLeft (s : State) : (s.unsetChannels).btnLeft = s.btnLeft := rfl
@[simp] theorem State.unsetChannels_btnRight (s : State) : (s.unsetChannels).btnRight = s.btnRight := rfl
@[simp] theorem State.unsetChannels_mode (s : State) : (s.unsetChannels).mode = s.mode := rfl
@[simp] theorem State.unsetChannels_cyc (s : State) : (s.unsetChannels).cyc = s.cyc := rfl
@[simp] theorem State.unsetChannels_line (s : State) : (s.unsetChannels).line = s.line := rfl
@[simp] theorem State.unsetChannels_inited (s : State) : (s.unsetChannels).inited = s.inited := rfl
@[simp] theorem State.unsetChannels_armSeen (s : State) : (s.unsetChannels).armSeen = s.armSeen := rfl
@[simp] theorem State.unsetChannels_res (s : State) : (s.unsetChannels).res = s.res := rfl
@[simp] theorem State.unsetChannels_report (s : State) : (s.unsetChannels).report = s.report := rfl
@[simp] theorem State.unsetChannels_cmd (s : State) : (s.unsetChannels).cmd = s.cmd := rfl
@[simp] theorem State.unsetChannels_draws (s : State) : (s.unsetChannels).draws = s.draws + 2 := rfl

/-! ### `State.onAxis` -/

@[simp] theorem State.onAxis_params (s : State) (a : Axis) (f : AxisState → AxisState) :
    (s.onAxis a f).params = s.params := rfl
@[simp] theorem State.onAxis_chan (s : State) (a : Axis) (f : AxisState → AxisState) :
    (s.onAxis a f).chan = s.chan := rfl
@[simp] theorem State.onAxis_axis (s : State) (a : Axis) (f : AxisState → AxisState) :
    (s.onAxis a f).axis = s.axis.set a (f (s.axis.get a)) := rfl
@[simp] theorem State.onAxis_btnLeft (s : State) (a : Axis) (f : AxisState → AxisState) :
    (s.onAxis a f).btnLeft = s.btnLeft := rfl
@[simp] theorem State.onAxis_btnRight (s : State) (a : Axis) (f : AxisState → AxisState) :
    (s.onAxis a f).btnRight = s.btnRight := rfl
@[simp] theorem State.onAxis_mode (s : State) (a : Axis) (f : AxisState → AxisState) :
    (s.onAxis a f).mode = s.mode := rfl
@[simp] theorem State.onAxis_cyc (s : State) (a : Axis) (f : AxisState → AxisState) :
    (s.onAxis a f).cyc = s.cyc := rfl
@[simp] theorem State.onAxis_line (s : State) (a : Axis) (f : AxisState → AxisState) :
    (s.onAxis a f).line = s.line := rfl
@[simp] theorem State.onAxis_inited (s : State) (a : Axis) (f : AxisState → AxisState) :
    (s.onAxis a f).inited = s.inited := rfl
@[simp] theorem State.onAxis_armSeen (s : State) (a : Axis) (f : AxisState → AxisState) :
    (s.onAxis a f).armSeen = s.armSeen := rfl
@[simp] theorem State.onAxis_res (s : State) (a : Axis) (f : AxisState → AxisState) :
    (s.onAxis a f).res = s.res := rfl
@[simp] theorem State.onAxis_report (s : State) (a : Axis) (f : AxisState → AxisState) :
    (s.onAxis a f).report = s.report := rfl
@[simp] theorem State.onAxis_cmd (s : State) (a : Axis) (f : AxisState → AxisState) :
    (s.onAxis a f).cmd = s.cmd := rfl
@[simp] theorem State.onAxis_draws (s : State) (a : Axis) (f : AxisState → AxisState) :
    (s.onAxis a f).draws = s.draws := rfl

/-! ### `State.onLines` -/

@[simp] theorem State.onLines_params (s : State) (f : SenseLine → SenseLine) : (s.onLines f).params = s.params := rfl
@[simp] theorem State.onLines_chan (s : State) (f : SenseLine → SenseLine) : (s.onLines f).chan = s.chan := rfl
@[simp] theorem State.onLines_axis (s : State) (f : SenseLine → SenseLine) : (s.onLines f).axis = s.axis := rfl
@[simp] theorem State.onLines_btnLeft (s : State) (f : SenseLine → SenseLine) :
    (s.onLines f).btnLeft = s.btnLeft := rfl
@[simp] theorem State.onLines_btnRight (s : State) (f : SenseLine → SenseLine) :
    (s.onLines f).btnRight = s.btnRight := rfl
@[simp] theorem State.onLines_mode (s : State) (f : SenseLine → SenseLine) : (s.onLines f).mode = s.mode := rfl
@[simp] theorem State.onLines_cyc (s : State) (f : SenseLine → SenseLine) : (s.onLines f).cyc = s.cyc := rfl
@[simp] theorem State.onLines_line (s : State) (f : SenseLine → SenseLine) :
    (s.onLines f).line = { c0 := f s.line.c0, c1 := f s.line.c1 } := rfl
@[simp] theorem State.onLines_inited (s : State) (f : SenseLine → SenseLine) : (s.onLines f).inited = s.inited := rfl
@[simp] theorem State.onLines_armSeen (s : State) (f : SenseLine → SenseLine) :
    (s.onLines f).armSeen = s.armSeen := rfl
@[simp] theorem State.onLines_res (s : State) (f : SenseLine → SenseLine) : (s.onLines f).res = s.res := rfl
@[simp] theorem State.onLines_report (s : State) (f : SenseLine → SenseLine) : (s.onLines f).report = s.report := rfl
@[simp] theorem State.onLines_cmd (s : State) (f : SenseLine → SenseLine) : (s.onLines f).cmd = s.cmd := rfl
@[simp] theorem State.onLines_draws (s : State) (f : SenseLine → SenseLine) : (s.onLines f).draws = s.draws := rfl

/-! ### `State.sampleButtons` -/

@[simp] theorem State.sampleButtons_params (s : State) (b : BitVec 2) : (s.sampleButtons b).params = s.params := rfl
@[simp] theorem State.sampleButtons_chan (s : State) (b : BitVec 2) : (s.sampleButtons b).chan = s.chan := rfl
@[simp] theorem State.sampleButtons_axis (s : State) (b : BitVec 2) : (s.sampleButtons b).axis = s.axis := rfl
@[simp] theorem State.sampleButtons_btnLeft (s : State) (b : BitVec 2) :
    (s.sampleButtons b).btnLeft = leftPressed b := rfl
@[simp] theorem State.sampleButtons_btnRight (s : State) (b : BitVec 2) :
    (s.sampleButtons b).btnRight = rightPressed b := rfl
@[simp] theorem State.sampleButtons_mode (s : State) (b : BitVec 2) : (s.sampleButtons b).mode = s.mode := rfl
@[simp] theorem State.sampleButtons_cyc (s : State) (b : BitVec 2) : (s.sampleButtons b).cyc = s.cyc := rfl
@[simp] theorem State.sampleButtons_line (s : State) (b : BitVec 2) : (s.sampleButtons b).line = s.line := rfl
@[simp] theorem State.sampleButtons_inited (s : State) (b : BitVec 2) : (s.sampleButtons b).inited = s.inited := rfl
@[simp] theorem State.sampleButtons_armSeen (s : State) (b : BitVec 2) :
    (s.sampleButtons b).armSeen = s.armSeen := rfl
@[simp] theorem State.sampleButtons_res (s : State) (b : BitVec 2) : (s.sampleButtons b).res = s.res := rfl
@[simp] theorem State.sampleButtons_report (s : State) (b : BitVec 2) : (s.sampleButtons b).report = s.report := rfl
@[simp] theorem State.sampleButtons_cmd (s : State) (b : BitVec 2) : (s.sampleButtons b).cmd = s.cmd := rfl
@[simp] theorem State.sampleButtons_draws (s : State) (b : BitVec 2) : (s.sampleButtons b).draws = s.draws := rfl

end Sys2Proof.Machine
end

