-- ==== Sys2Proof/Laws/Values.lean ====
section
/-! SUPPORT. What narrowing does to sums and differences of cells, and the range of the circular difference. -/

namespace Sys2Proof.Machine

theorem narrow16_toInt (w : Word) : narrow16 w.toInt = w := BitVec.ofInt_toInt

theorem narrow16_toNat (w : Word) : narrow16 (w.toNat : Int) = w := by
  simp [narrow16]

theorem narrow16_add (a b : Int) : narrow16 (a + b) = narrow16 a + narrow16 b := BitVec.ofInt_add a b

theorem narrow16_sub (a b : Int) : narrow16 (a - b) = narrow16 a - narrow16 b := by
  rw [sub_eq_add_neg, narrow16_add, BitVec.sub_eq_add_neg]
  simp [narrow16, BitVec.ofInt_neg]

/-- A value inside the signed range is kept by narrowing. -/
theorem toInt_narrow16 {v : Int} (lo : -32768 ≤ v) (hi : v ≤ 32767) : (narrow16 v).toInt = v := by
  simp only [narrow16, BitVec.toInt_ofInt, Int.bmod_def]
  omega

/-- A value inside the signed 8-bit range is kept by narrowing. -/
theorem toInt_narrow8 {v : Int} (lo : -128 ≤ v) (hi : v ≤ 127) : (narrow8 v).toInt = v := by
  simp only [narrow8, BitVec.toInt_ofInt, Int.bmod_def]
  omega

theorem topos_eq_sub (deadTicks raw : Word) : topos deadTicks raw = raw - deadTicks := by
  simp only [topos, narrow16_sub, narrow16_toNat]

theorem accumulated_x (acc d : Word) : accumulated .x acc d.toInt = acc + d := by
  simp only [accumulated, narrow16_add, narrow16_toInt]

theorem accumulated_y (acc d : Word) : accumulated .y acc d.toInt = acc - d := by
  simp only [accumulated, narrow16_sub, narrow16_toInt]

/-- The circular difference as a remainder, in the two ranges of R121. -/
theorem cdelta_cases (p q : Word) :
    (((q.toNat : Int) - p.toNat) % 2048 ≤ 1023 ∧ cdelta p q = ((q.toNat : Int) - p.toNat) % 2048) ∨
    (1024 ≤ ((q.toNat : Int) - p.toNat) % 2048 ∧ cdelta p q = ((q.toNat : Int) - p.toNat) % 2048 - 2048) := by
  have e : (2 : Int) ^ Config.posBits = 2048 := by decide
  unfold cdelta
  simp only [e]
  by_cases h : ((q.toNat : Int) - p.toNat) % 2048 ≤ 1023
  · exact .inl ⟨h, if_pos h⟩
  · exact .inr ⟨by omega, if_neg h⟩

theorem cdelta_lower (p q : Word) : -1024 ≤ cdelta p q := by
  rcases cdelta_cases p q with ⟨_, h⟩ | ⟨_, h⟩ <;> omega

theorem cdelta_upper (p q : Word) : cdelta p q ≤ 1023 := by
  rcases cdelta_cases p q with ⟨_, h⟩ | ⟨_, h⟩ <;> omega

end Sys2Proof.Machine
end

