-- ==== Sys2Proof/Laws/Ops.lean ====
section
/-! SUPPORT. For each shared operation, once, everything it does: the next state written out. -/

namespace Sys2Proof.Machine

/-- Everything the guard of the six operations can answer (R186). -/
theorem State.onceInited_next_iff (s s' t : State) : s.onceInited s' = .next t ↔ s.inited = true ∧ s' = t := by
  unfold State.onceInited
  cases s.inited <;> simp

theorem State.onceInited_of_inited {s : State} (h : s.inited = true) (s' : State) : s.onceInited s' = .next s' := by
  simp [State.onceInited, h]

theorem State.onceInited_of_not {s : State} (h : s.inited = false) (s' : State) :
    s.onceInited s' = .refused .beforeInit := by
  simp [State.onceInited, h]

theorem State.takeCommand_nil {s : State} (h : s.cmd = []) : s.takeCommand = none := by
  simp [State.takeCommand, h]

theorem State.takeCommand_cons {s : State} {w : CmdWord} {rest : List CmdWord} (h : s.cmd = w :: rest) :
    s.takeCommand = some (w, { s with cmd := rest }) := by
  simp [State.takeCommand, h]

/-- Everything one clock period does to a selected channel (R105). -/
theorem Capture.counted_eq (k : Capture) :
    k.counted = { k with cnt := if k.run = true then k.cnt + 1 else k.cnt } := by
  have e : narrow16 ((k.cnt.toNat : Int) + 1) = k.cnt + 1 := by
    rw [narrow16_add, narrow16_toNat]; rfl
  unfold Capture.counted
  split
  · rw [e]
  · rfl

theorem State.disarm_eq (s : State) (c : Channel) :
    s.disarm c = { s with chan := s.chan.set c { s.chan.get c with armed := false, run := false } } := rfl

theorem State.edge_armed {s : State} {c : Channel} (h : (s.chan.get c).armed = true) :
    s.edge c =
      { s with chan := s.chan.set c { s.chan.get c with armed := false, run := false, ts := (s.chan.get c).cnt } } := by
  simp [State.edge, State.onChannel, Capture.edged, h, Capture.interrupt]

theorem State.edge_disarmed {s : State} {c : Channel} (h : (s.chan.get c).armed = false) :
    s.edge c = { s with chan := s.chan.set c { s.chan.get c with pend := true } } := by
  simp [State.edge, State.onChannel, Capture.edged, h]

theorem State.accumulate_eq (s : State) (a : Axis) (d : Int) :
    s.accumulate a d =
      { s with axis := s.axis.set a { s.axis.get a with acc := accumulated a (s.axis.get a).acc d } } := rfl

theorem State.flush_eq (s : State) (a : Axis) :
    s.flush a =
      { s with
        axis := s.axis.set a
          { s.axis.get a with vout := velocity (s.axis.get a).acc s.params.nWindow, acc := 0 } } := rfl

theorem State.sample_eq (s : State) (a : Axis) :
    s.sample a =
      let x := s.axis.get a
      let cur := topos s.params.deadTicks (s.chan.get (channelOf a)).ts
      { s with axis := s.axis.set a { x with prev := x.cur, cur := cur, acc := accumulated a x.acc (cdelta x.cur cur) } } := by
  simp [State.sample, State.shiftSample, State.accumulate, State.onAxis]

theorem State.sampleUnless_missed (s : State) (a : Axis) : s.sampleUnless true a = s := rfl

theorem State.sampleUnless_valid (s : State) (a : Axis) : s.sampleUnless false a = s.sample a := rfl

theorem State.senseLow_eq (s : State) :
    s.senseLow =
      { s with
        line :=
          { c0 := { s.line.c0 with dir := .output, out := false }
            c1 := { s.line.c1 with dir := .output, out := false } } } := rfl

theorem State.release_eq (s : State) :
    s.release =
      { s with
        line :=
          { c0 := { s.line.c0 with dir := .input, pullup := false }
            c1 := { s.line.c1 with dir := .input, pullup := false } } } := rfl

/-- `CADENCE` inside a window (R146). -/
theorem State.cadence_of_ne {s : State} (h : (s.cyc + 1).toNat ≠ s.params.nWindow) :
    s.cadence = { s with cyc := s.cyc + 1 } := by
  unfold State.cadence
  exact if_neg h

/-- `CADENCE` at the end of a window (R146, R147). -/
theorem State.cadence_of_eq {s : State} (h : (s.cyc + 1).toNat = s.params.nWindow) :
    s.cadence =
      { s with
        axis :=
          { x := { s.axis.x with vout := velocity s.axis.x.acc s.params.nWindow, acc := 0 }
            y := { s.axis.y with vout := velocity s.axis.y.acc s.params.nWindow, acc := 0 } }
        report := some
          { vx := velocity s.axis.x.acc s.params.nWindow
            vy := velocity s.axis.y.acc s.params.nWindow
            bm := buttonMask s.btnLeft s.btnRight }
        cyc := 0 } := by
  unfold State.cadence
  exact if_pos h

/-- The cells of an axis after a valid sample (R127). -/
def sampledCells (deadTicks ts : Word) (a : Axis) (x : AxisState) : AxisState :=
  { x with
    prev := x.cur
    cur := topos deadTicks ts
    acc := accumulated a x.acc (cdelta x.cur (topos deadTicks ts)) }

/-- The state a discharge entry hands to `CADENCE`: everything but the count of the pair (R142 without its last line). -/
def State.beforeCadence (s : State) (b : BitVec 2) : State :=
  { s with
    chan := { c0 := s.chan.c0.rearmed, c1 := s.chan.c1.rearmed }
    axis :=
      { x := bif s.chan.c0.run then s.axis.x else sampledCells s.params.deadTicks s.chan.c0.ts .x s.axis.x
        y := bif s.chan.c1.run then s.axis.y else sampledCells s.params.deadTicks s.chan.c1.ts .y s.axis.y }
    btnLeft := leftPressed b
    btnRight := rightPressed b
    line :=
      { c0 := { dir := .output, out := false, pullup := s.line.c0.pullup }
        c1 := { dir := .output, out := false, pullup := s.line.c1.pullup } }
    armSeen := true }

/-- Everything a discharge entry does (R142): the state of `beforeCadence`, then `CADENCE`. -/
theorem State.dischargeEntry_eq (s : State) (b : BitVec 2) : s.dischargeEntry b = (s.beforeCadence b).cadence := by
  unfold State.dischargeEntry State.beforeCadence
  cases h0 : s.chan.c0.run <;> cases h1 : s.chan.c1.run <;>
    simp only [Capture.isRunning, h0, h1, State.disarm_eq, State.senseLow_eq, State.armBoth, State.sampleUnless,
      State.sample_eq, State.sampleButtons] <;> rfl

theorem State.tick_read {s : State} (h : s.mode = .read) (b : BitVec 2) :
    s.tick b = { s.release with mode := .discharge } := by
  simp [State.tick, h]

theorem State.tick_discharge {s : State} (h : s.mode = .discharge) (b : BitVec 2) :
    s.tick b = { s.dischargeEntry b with mode := .read } := by
  simp [State.tick, h]

end Sys2Proof.Machine
end

