-- ==== Sys2Proof/Laws/Exec.lean ====
section
/-! SUPPORT. Once, everything one step can do; and, per operation, everything it can do when it goes on. -/

namespace Sys2Proof.Machine

/-- A step that goes on either found no command, or performed the operation the next word encodes. -/
theorem step_cases {s t : State} (h : step s = .next t) :
    (s.cmd = [] ∧ t = s.quiet) ∨
    ∃ w rest i, s.cmd = w :: rest ∧ decode w = .instr i ∧ exec i { s with cmd := rest } = .next t := by
  cases hc : s.cmd with
  | nil =>
    refine .inl ⟨rfl, ?_⟩
    simpa [step, State.takeCommand_nil hc, eq_comm] using h
  | cons w rest =>
    right
    simp only [step, State.takeCommand_cons hc] at h
    cases hd : decode w with
    | instr i => exact ⟨w, rest, i, rfl, hd, by simpa [hd] using h⟩
    | reservedOpcode => simp [hd] at h
    | reservedBits => simp [hd] at h

/-! ### Capture Timer -/

theorem exec_init_next {s t : State} (h : exec .init s = .next t) :
    s.armSeen = false ∧ t = s.quiet.initChannels := by
  simp only [exec, execInit] at h
  split at h <;> simp_all

theorem exec_arm_next {s t : State} (h : exec .arm s = .next t) : s.inited = true ∧ t = s.quiet.armBoth := by
  obtain ⟨hi, e⟩ := (State.onceInited_next_iff _ _ _).1 h
  exact ⟨hi, e.symm⟩

theorem exec_disarm_next {c : Channel} {s t : State} (h : exec (.disarm c) s = .next t) :
    s.inited = true ∧ t = s.quiet.disarm c := by
  obtain ⟨hi, e⟩ := (State.onceInited_next_iff _ _ _).1 h
  exact ⟨hi, e.symm⟩

theorem exec_tstamp_next {c : Channel} {s t : State} (h : exec (.tstamp c) s = .next t) :
    s.inited = true ∧ t = s.quiet.answer (s.chan.get c).ts := by
  obtain ⟨hi, e⟩ := (State.onceInited_next_iff _ _ _).1 h
  exact ⟨hi, e.symm⟩

theorem exec_isrun_next {c : Channel} {s t : State} (h : exec (.isrun c) s = .next t) :
    s.inited = true ∧ t = s.quiet.answer (resOfBool (s.chan.get c).run) := by
  obtain ⟨hi, e⟩ := (State.onceInited_next_iff _ _ _).1 h
  exact ⟨hi, e.symm⟩

/-- `CLK` before `INIT` leaves the channels without a value; after it, a count moves by one where the mask selects a
running channel, and nothing else moves. -/
theorem exec_clk_next {m : BitVec 2} {s t : State} (h : exec (.clk m) s = .next t) :
    (s.inited = false ∧ t = s.quiet.unsetChannels) ∨
    (s.inited = true ∧ ∃ n0 n1,
      t = { s.quiet with chan := { c0 := { s.chan.c0 with cnt := n0 }, c1 := { s.chan.c1 with cnt := n1 } } } ∧
      n0 = (if maskSelects m .c0 = true ∧ s.chan.c0.run = true then s.chan.c0.cnt + 1 else s.chan.c0.cnt) ∧
      n1 = (if maskSelects m .c1 = true ∧ s.chan.c1.run = true then s.chan.c1.cnt + 1 else s.chan.c1.cnt)) := by
  simp only [exec, execClk, Host.Outcome.next.injEq] at h
  subst h
  cases hi : s.inited with
  | false => simp
  | true =>
    refine .inr ⟨rfl, _, _, ?_, rfl, rfl⟩
    cases h0 : maskSelects m .c0 <;> cases h1 : maskSelects m .c1 <;> simp [State.clock, h0, h1, Capture.counted_eq]

/-- `EDGE` before `INIT` leaves the channels without a value; after it, the edge is serviced or kept pending. -/
theorem exec_edge_next {c : Channel} {s t : State} (h : exec (.edge c) s = .next t) :
    (s.inited = false ∧ t = s.quiet.unsetChannels) ∨
    (s.inited = true ∧ (s.chan.get c).armed = true ∧
      t =
        { s.quiet with
          chan := s.chan.set c { s.chan.get c with armed := false, run := false, ts := (s.chan.get c).cnt } }) ∨
    (s.inited = true ∧ (s.chan.get c).armed = false ∧
      t = { s.quiet with chan := s.chan.set c { s.chan.get c with pend := true } }) := by
  simp only [exec, execEdge, Host.Outcome.next.injEq] at h
  subst h
  cases hi : s.inited with
  | false => simp
  | true =>
    right
    cases ha : (s.chan.get c).armed with
    | true => exact .inl ⟨rfl, rfl, State.edge_armed (s := s.quiet) ha⟩
    | false => exact .inr ⟨rfl, rfl, State.edge_disarmed (s := s.quiet) ha⟩

/-! ### Decoder -/

theorem exec_topos_next {v : Word} {s t : State} (h : exec (.topos v) s = .next t) :
    t = s.quiet.answer (topos s.params.deadTicks v) :=
  (Host.Outcome.next.inj h).symm

theorem exec_cdelta_next {p q : Word} {s t : State} (h : exec (.cdelta p q) s = .next t) :
    t = s.quiet.answer (resOfDelta (cdelta p q)) :=
  (Host.Outcome.next.inj h).symm

theorem exec_accum_next {a : Axis} {d : Word} {s t : State} (h : exec (.accum a d) s = .next t) :
    t = s.quiet.accumulate a d.toInt :=
  (Host.Outcome.next.inj h).symm

theorem exec_flush_next {a : Axis} {s t : State} (h : exec (.flush a) s = .next t) :
    t = (s.quiet.flush a).answer (resOfVelocity (velocity (s.axis.get a).acc s.params.nWindow)) := by
  have e : (s.quiet.flush a).axis.get a = _ := PerAxis.get_set_self _ _ _
  rw [← Host.Outcome.next.inj h, e]
  rfl

theorem exec_sample_next {a : Axis} {s t : State} (h : exec (.sample a) s = .next t) :
    s.inited = true ∧ t = s.quiet.sample a := by
  obtain ⟨hi, e⟩ := (State.onceInited_next_iff _ _ _).1 h
  exact ⟨hi, e.symm⟩

/-! ### State machine -/

theorem exec_senselow_next {s t : State} (h : exec .senselow s = .next t) : t = s.quiet.senseLow :=
  (Host.Outcome.next.inj h).symm

theorem exec_release_next {s t : State} (h : exec .release s = .next t) : t = s.quiet.release :=
  (Host.Outcome.next.inj h).symm

theorem exec_buttons_next {b : BitVec 2} {s t : State} (h : exec (.buttons b) s = .next t) :
    t = s.quiet.sampleButtons b :=
  (Host.Outcome.next.inj h).symm

/-- The count of a pair, inside a window or at its end. -/
theorem State.cadence_cases (s : State) :
    ((s.cyc + 1).toNat ≠ s.params.nWindow ∧ s.cadence = { s with cyc := s.cyc + 1 }) ∨
    ((s.cyc + 1).toNat = s.params.nWindow ∧ ∃ r, s.cadence =
      { s with
        axis :=
          { x := { s.axis.x with vout := velocity s.axis.x.acc s.params.nWindow, acc := 0 }
            y := { s.axis.y with vout := velocity s.axis.y.acc s.params.nWindow, acc := 0 } }
        report := some r
        cyc := 0 }) := by
  by_cases h : (s.cyc + 1).toNat = s.params.nWindow
  · exact .inr ⟨h, _, State.cadence_of_eq h⟩
  · exact .inl ⟨h, State.cadence_of_ne h⟩

theorem exec_cadence_next {s t : State} (h : exec .cadence s = .next t) : t = s.quiet.cadence :=
  (Host.Outcome.next.inj h).symm

/-- A tick releases the lines, or makes a discharge entry inside a window, or one that ends a window. -/
theorem exec_tick_next {b : BitVec 2} {s t : State} (h : exec (.tick b) s = .next t) :
    s.inited = true ∧
    ((s.mode = .read ∧ t = { s.quiet.release with mode := .discharge }) ∨
     (s.mode = .discharge ∧ (s.cyc + 1).toNat ≠ s.params.nWindow ∧
      t = { s.quiet.beforeCadence b with cyc := s.cyc + 1, mode := .read }) ∨
     (s.mode = .discharge ∧ (s.cyc + 1).toNat = s.params.nWindow ∧ ∃ r,
      t =
        { s.quiet.beforeCadence b with
          axis :=
            { x :=
                { (s.quiet.beforeCadence b).axis.x with
                  vout := velocity (s.quiet.beforeCadence b).axis.x.acc s.params.nWindow, acc := 0 }
              y :=
                { (s.quiet.beforeCadence b).axis.y with
                  vout := velocity (s.quiet.beforeCadence b).axis.y.acc s.params.nWindow, acc := 0 } }
          report := some r
          cyc := 0
          mode := .read })) := by
  simp only [exec, execTick, State.onceInited_next_iff] at h
  obtain ⟨hi, rfl⟩ := h
  refine ⟨hi, ?_⟩
  cases hm : s.mode with
  | read => exact .inl ⟨rfl, State.tick_read (s := s.quiet) hm b⟩
  | discharge =>
    right
    rw [State.tick_discharge (s := s.quiet) hm, State.dischargeEntry_eq]
    rcases State.cadence_cases (s.quiet.beforeCadence b) with ⟨hc, e⟩ | ⟨hc, r, e⟩
    · exact .inl ⟨rfl, hc, by rw [e]; rfl⟩
    · exact .inr ⟨rfl, hc, r, by rw [e]; rfl⟩

/-- `cyc + 1` does not wrap while `cyc` is below the window length. -/
theorem State.cyc_succ {s : State} (h : s.cyc.toNat < s.params.nWindow) : (s.cyc + 1).toNat = s.cyc.toNat + 1 := by
  have := s.params.nWindow_le
  rw [BitVec.toNat_add]
  simp
  omega

end Sys2Proof.Machine
end

