-- ==== Sys2Proof/Laws/PerInstr.lean ====
section
/-! SUPPORT. Per operation: the word the encoder gives selects the operation's own row of the opcode map
(spec/30_encoding.md R83). -/

namespace Sys2Proof.Laws.RowOfEncoding

/-- The encoder's word selects the row of the operation's mnemonic. -/
def Statement (i : Instr) : Prop := ∃ r ∈ opcodeTable, r.mnem = i.mnem ∧ r.selects (encode i) = true

theorem word_and_zero (v : Word) : v &&& (0 : Word) = 0 := by simp

theorem init : Statement .init := ⟨⟨.init, 0x0100000000, 0xFFFFFFFFFF⟩, by decide, rfl, by decide⟩

theorem arm : Statement .arm := ⟨⟨.arm, 0x0200000000, 0xFFFFFFFFFF⟩, by decide, rfl, by decide⟩

theorem disarm (c : Channel) : Statement (.disarm c) :=
  ⟨⟨.disarm, 0x0300000000, 0xFFFFFFFFFE⟩, by decide, rfl, by cases c <;> decide⟩

theorem tstamp (c : Channel) : Statement (.tstamp c) :=
  ⟨⟨.tstamp, 0x0400000000, 0xFFFFFFFFFE⟩, by decide, rfl, by cases c <;> decide⟩

theorem isrun (c : Channel) : Statement (.isrun c) :=
  ⟨⟨.isrun, 0x0500000000, 0xFFFFFFFFFE⟩, by decide, rfl, by cases c <;> decide⟩

theorem clk (m : BitVec 2) : Statement (.clk m) :=
  ⟨⟨.clk, 0x0800000000, 0xFFFFFFFFFC⟩, by decide, rfl, by revert m; decide⟩

theorem edge (c : Channel) : Statement (.edge c) :=
  ⟨⟨.edge, 0x0900000000, 0xFFFFFFFFFE⟩, by decide, rfl, by cases c <;> decide⟩

theorem topos (v : Word) : Statement (.topos v) :=
  ⟨⟨.topos, 0x1000000000, 0xFFFFFF0000⟩, by decide, rfl, by
    rw [Row.selects, show (0xFFFFFF0000 : CmdWord) = mkWord 0xFF 0xFFFF 0 by decide, encode, mkWord_and]
    simp only [word_and_zero]
    decide⟩

theorem cdelta (p q : Word) : Statement (.cdelta p q) :=
  ⟨⟨.cdelta, 0x1100000000, 0xFF00000000⟩, by decide, rfl, by
    rw [Row.selects, show (0xFF00000000 : CmdWord) = mkWord 0xFF 0 0 by decide, encode, mkWord_and]
    simp only [word_and_zero]
    decide⟩

theorem accum (a : Axis) (d : Word) : Statement (.accum a d) :=
  ⟨⟨.accum, 0x1200000000, 0xFFFFFE0000⟩, by decide, rfl, by
    rw [Row.selects, show (0xFFFFFE0000 : CmdWord) = mkWord 0xFF 0xFFFE 0 by decide, encode, mkWord_and]
    simp only [word_and_zero]
    cases a <;> decide⟩

theorem flush (a : Axis) : Statement (.flush a) :=
  ⟨⟨.flush, 0x1300000000, 0xFFFFFFFFFE⟩, by decide, rfl, by cases a <;> decide⟩

theorem sample (a : Axis) : Statement (.sample a) :=
  ⟨⟨.sample, 0x1400000000, 0xFFFFFFFFFE⟩, by decide, rfl, by cases a <;> decide⟩

theorem tick (b : BitVec 2) : Statement (.tick b) :=
  ⟨⟨.tick, 0x2000000000, 0xFFFFFFFFFC⟩, by decide, rfl, by revert b; decide⟩

theorem senselow : Statement .senselow := ⟨⟨.senselow, 0x2100000000, 0xFFFFFFFFFF⟩, by decide, rfl, by decide⟩

theorem release : Statement .release := ⟨⟨.release, 0x2200000000, 0xFFFFFFFFFF⟩, by decide, rfl, by decide⟩

theorem buttons (b : BitVec 2) : Statement (.buttons b) :=
  ⟨⟨.buttons, 0x2300000000, 0xFFFFFFFFFC⟩, by decide, rfl, by revert b; decide⟩

theorem cadence : Statement .cadence := ⟨⟨.cadence, 0x2400000000, 0xFFFFFFFFFF⟩, by decide, rfl, by decide⟩

end Sys2Proof.Laws.RowOfEncoding
end

