-- ==== Sys2Proof/Laws/WellFormed.lean ====
section
/-! SUPPORT. Every operation's written form is well formed: its ranges are those of its types. -/

namespace Sys2Proof

@[simp] theorem OperandKind.admits_channel (c : Channel) : OperandKind.channel.admits c.arg = true := by
  cases c <;> rfl

@[simp] theorem OperandKind.admits_mask (m : BitVec 2) : OperandKind.mask.admits (.num m.toNat) = true := by
  have := m.isLt
  simp only [admits, decide_eq_true_eq]
  omega

@[simp] theorem OperandKind.admits_value (v : Word) : OperandKind.value.admits (.num v.toNat) = true := by
  have := v.isLt
  simp only [admits, decide_eq_true_eq]
  omega

@[simp] theorem OperandKind.admits_delta (d : Word) : OperandKind.delta.admits (.num d.toInt) = true := by
  have := BitVec.toInt_lt (x := d)
  have := BitVec.le_toInt (x := d)
  simp only [admits, decide_eq_true_eq]
  omega

@[simp] theorem OperandKind.admits_letter (a : Axis) : OperandKind.axis.admits (.letter a) = true := rfl

theorem Instr.wf_always (i : Instr) : i.wf = true := by
  cases i <;>
    simp [Instr.wf, Src.wf, Instr.src, Instr.mnem, Mnem.shapes, fits]

end Sys2Proof
end

