-- ==== Sys2Proof/Tests/Slice0.lean ====
section
/-! SUPPORT. The model's own tests. Expected values come from spec/95_test_vectors.md (its row is named), or are worked
out by hand from the rule named. Words are written out from the formats of R81 and the map of R83. -/

namespace Sys2Proof.Tests

open Sys2Proof.Machine

/-! ### Helpers -/

/-- A capture channel that stands stopped with a timestamp. -/
def stoppedChannel (ts : Word) : Capture := { cnt := 0, ts := ts, run := false, armed := false, pend := false }

/-- A capture channel that counts, armed. -/
def runningChannel (cnt ts : Word) : Capture := { cnt := cnt, ts := ts, run := true, armed := true, pend := false }

/-- The cells of an axis. -/
def axisCells (cur prev acc : Word) : AxisState := { cur := cur, prev := prev, acc := acc, vout := 0 }

/-- `DEAD_TICKS = 2048` and `N_WINDOW = w + 1`. -/
def paramsOf (w : Fin 64) : Params := { deadTicks := 2048, window := w }

/-- The state after `INIT`, with the given channels and axes, lines released, nothing armed. -/
def ready (w : Fin 64) (c0 c1 : Capture) (x y : AxisState) : State :=
  { params := paramsOf w
    chan := { c0 := c0, c1 := c1 }
    axis := { x := x, y := y }
    btnLeft := false
    btnRight := false
    mode := .discharge
    cyc := 0
    line := { c0 := SenseLine.reset, c1 := SenseLine.reset }
    inited := true
    armSeen := false
    res := none
    report := none
    cmd := []
    draws := 0 }

/-- After `INIT`, everything zero, `N_WINDOW = 40`. -/
def idle : State := ready 39 (stoppedChannel 0) (stoppedChannel 0) (axisCells 0 0 0) (axisCells 0 0 0)

/-- Before `INIT`, everything zero. -/
def raw : State := { idle with inited := false }

/-- A line driven low. -/
def lowLine : SenseLine := { dir := .output, out := false, pullup := false }

/-- In the discharge phase: both channels armed and counting, lines low, `mode` Read. -/
def armed : State :=
  { ready 39 (runningChannel 7 5) (runningChannel 9 6) (axisCells 0 0 0) (axisCells 0 0 0) with
    armSeen := true, mode := .read, line := { c0 := lowLine, c1 := lowLine } }

/-- At the end of a read phase in which channel 0 captured 2198 and channel 1 captured nothing. -/
def readEnd : State :=
  { ready 39 (stoppedChannel 2198) (runningChannel 4096 2198) (axisCells 0x64 0x10 5) (axisCells 0x96 0x20 6) with
    armSeen := true }

/-! ### Well-formedness: each check refuses an ill-formed operation (R82, R87, R88) -/

theorem test_wf_accepts_delta : Src.wf { mnem := .accum, args := [.letter .x, .num (-50)] } = true := by decide
theorem test_wf_accepts_axis_number : Src.wf { mnem := .flush, args := [.num 1] } = true := by decide
theorem test_wf_refuses_missing_operand : Src.wf { mnem := .cdelta, args := [.num 1] } = false := by decide
theorem test_wf_refuses_extra_operand : Src.wf { mnem := .arm, args := [.num 0] } = false := by decide
theorem test_wf_refuses_channel_two : Src.wf { mnem := .disarm, args := [.num 2] } = false := by decide
theorem test_wf_refuses_channel_letter : Src.wf { mnem := .edge, args := [.letter .x] } = false := by decide
theorem test_wf_refuses_axis_two : Src.wf { mnem := .sample, args := [.num 2] } = false := by decide
theorem test_wf_refuses_mask_four : Src.wf { mnem := .clk, args := [.num 4] } = false := by decide
theorem test_wf_refuses_mask_letter : Src.wf { mnem := .buttons, args := [.letter .y] } = false := by decide
theorem test_wf_refuses_wide_value : Src.wf { mnem := .topos, args := [.num 65536] } = false := by decide
theorem test_wf_refuses_negative_value : Src.wf { mnem := .topos, args := [.num (-1)] } = false := by decide
theorem test_wf_refuses_value_letter : Src.wf { mnem := .topos, args := [.letter .x] } = false := by decide
theorem test_wf_refuses_low_delta : Src.wf { mnem := .accum, args := [.letter .x, .num (-32769)] } = false := by decide
theorem test_wf_refuses_wide_delta : Src.wf { mnem := .accum, args := [.letter .y, .num 65536] } = false := by decide
theorem test_wf_refuses_delta_letter : Src.wf { mnem := .accum, args := [.letter .y, .letter .y] } = false := by decide
theorem test_wf_refuses_negative_count : Src.wf { mnem := .clks, args := [.num (-1)] } = false := by decide
theorem test_wf_refuses_count_letter : Src.wf { mnem := .clks, args := [.letter .x] } = false := by decide

/-! ### Decoding: one written word per operation (R81, R83) -/

theorem test_decode_init : decode 0x0100000000 = .instr .init := by decide
theorem test_decode_arm : decode 0x0200000000 = .instr .arm := by decide
theorem test_decode_disarm : decode 0x0300000001 = .instr (.disarm .c1) := by decide
theorem test_decode_tstamp : decode 0x0400000001 = .instr (.tstamp .c1) := by decide
theorem test_decode_isrun : decode 0x0500000000 = .instr (.isrun .c0) := by decide
theorem test_decode_clk : decode 0x0800000002 = .instr (.clk 2) := by decide
theorem test_decode_edge : decode 0x0900000001 = .instr (.edge .c1) := by decide
theorem test_decode_topos : decode 0x1000000864 = .instr (.topos 2148) := by decide
theorem test_decode_cdelta : decode 0x1107FF0000 = .instr (.cdelta 2047 0) := by decide
theorem test_decode_accum : decode 0x120001FC00 = .instr (.accum .y (-1024)) := by decide
theorem test_decode_flush : decode 0x1300000001 = .instr (.flush .y) := by decide
theorem test_decode_sample : decode 0x1400000000 = .instr (.sample .x) := by decide
theorem test_decode_tick : decode 0x2000000002 = .instr (.tick 2) := by decide
theorem test_decode_senselow : decode 0x2100000000 = .instr .senselow := by decide
theorem test_decode_release : decode 0x2200000000 = .instr .release := by decide
theorem test_decode_buttons : decode 0x2300000001 = .instr (.buttons 1) := by decide
theorem test_decode_cadence : decode 0x2400000000 = .instr .cadence := by decide

/-- Reserved values of `op`: below, between and above the groups (R84). -/
theorem test_decode_reserved_opcodes :
    [0x0000000000, 0x0600000000, 0x0A00000000, 0x1500000000, 0x2500000000, 0xFF00000000].map decode =
      List.replicate 6 .reservedOpcode := by decide

/-- One forbidden bit set in each format that has one: Z in `A` and in `B`, C, M, V, XV (R81, R84). -/
theorem test_decode_reserved_bits :
    [0x0180000000, 0x0100000001, 0x0300000002, 0x1300010000, 0x0800000004, 0x1000010000, 0x1200020000].map decode =
      List.replicate 7 .reservedBits := by decide

theorem test_decodeTableWord : decodeTableWord 40 0x2300000003 = some (.buttons 3) := by decide
theorem test_decodeTableWord_short : decodeTableWord 32 0x2300000003 = none := by decide

/-- Five bytes, most significant first; a sequence that ends inside a word is rejected (R62; D23). -/
theorem test_wordsOfBytes : wordsOfBytes [0x11, 0x07, 0xFF, 0x00, 0x00] = some [0x1107FF0000] := by decide
theorem test_wordsOfBytes_truncated : wordsOfBytes [0x11, 0x07, 0xFF, 0x00] = none := by decide

/-! ### The assembler's text (R87, R88) -/

theorem test_assemble_examples :
    assemble "CDELTA 2047, 0\nACCUM X, -50 ; back\nTOPOS 0x864".toList =
      some [0x1107FF0000, 0x120000FFCE, 0x1000000864] := by decide
theorem test_assemble_pseudo :
    assemble "CLKS 2\nDISARMALL\nTICK".toList =
      some [0x0800000003, 0x0800000003, 0x0300000000, 0x0300000001, 0x2000000003] := by decide

/-! ### Capture Timer (vectors T1 to T16) -/

theorem test_init_refused_after_arm : refusalOf (exec .init armed) = some .initAfterArm := by decide
theorem test_init_keeps_ts :
    (nextOf (exec .init { raw with chan := { c0 := runningChannel 3 0x1234, c1 := runningChannel 4 0xABCD } })).map
      (·.chan) = some { c0 := stoppedChannel 0x1234, c1 := stoppedChannel 0xABCD } := by decide
theorem test_arm_refused_before_init : refusalOf (exec .arm raw) = some .beforeInit := by decide
/-- T4. -/
theorem test_arm_clears_pending :
    (nextOf (exec .arm (ready 39 { stoppedChannel 0x1234 with pend := true } (stoppedChannel 0xABCD) (axisCells 0 0 0)
      (axisCells 0 0 0)))).map (·.chan) = some { c0 := runningChannel 0 0x1234, c1 := runningChannel 0 0xABCD } := by
  decide
/-- T9: the counter holds. -/
theorem test_disarm_holds_count :
    (nextOf (exec (.disarm .c0) armed)).map (·.chan) =
      some { c0 := { stoppedChannel 5 with cnt := 7 }, c1 := runningChannel 9 6 } := by decide
/-- T6b. -/
theorem test_tstamp : (nextOf (exec (.tstamp .c1) armed)).map (·.res) = some (some 6) := by decide
/-- T5a, T3a. -/
theorem test_isrun_true : (nextOf (exec (.isrun .c1) armed)).map (·.res) = some (some 0x0001) := by decide
theorem test_isrun_false : (nextOf (exec (.isrun .c0) idle)).map (·.res) = some (some 0x0000) := by decide
/-- T5: the mask selects channel 1 only. -/
theorem test_clk_mask : (nextOf (exec (.clk 2) armed)).map (fun t => (t.chan.c0.cnt, t.chan.c1.cnt)) = some (7, 10) := by
  decide
/-- T13: a silent wrap, the counter still running. -/
theorem test_clk_wraps :
    (nextOf (exec (.clk 3) { armed with chan := { c0 := runningChannel 0xFFFF 5, c1 := stoppedChannel 6 } })).map
      (·.chan) = some { c0 := runningChannel 0 5, c1 := stoppedChannel 6 } := by decide
/-- T6. -/
theorem test_edge_latches :
    (nextOf (exec (.edge .c1) armed)).map (·.chan) =
      some { c0 := runningChannel 7 5, c1 := { stoppedChannel 9 with cnt := 9 } } := by decide
/-- T8: a second edge. -/
theorem test_edge_pends_when_disarmed :
    (nextOf (exec (.edge .c0) readEnd)).map (·.chan.c0) = some { stoppedChannel 2198 with pend := true } := by decide

/-! ### Decoder -/

theorem test_topos_no_clamp : (nextOf (exec (.topos 0) raw)).map (·.res) = some (some 0xF800) := by decide
theorem test_topos : (nextOf (exec (.topos 2148) raw)).map (·.res) = some (some 0x0064) := by decide
theorem test_cdelta_half_circle : (nextOf (exec (.cdelta 0 1024) raw)).map (·.res) = some (some 0xFC00) := by decide
theorem test_cdelta_high_bits_ignored : (nextOf (exec (.cdelta 100 0xF800) raw)).map (·.res) = some (some 0xFF9C) := by
  decide
theorem test_accum_x_wraps :
    (nextOf (exec (.accum .x 1) { idle with axis := { x := axisCells 0 0 32767, y := axisCells 0 0 0 } })).map
      (·.axis.x.acc.toInt) = some (-32768) := by decide
theorem test_accum_y_inverts : (nextOf (exec (.accum .y (-1024)) idle)).map (·.axis.y.acc.toInt) = some 1024 := by decide
/-- `N_WINDOW = 40`, `acc = -41`: toward zero. -/
theorem test_flush_rounds_toward_zero :
    (nextOf (exec (.flush .x) { idle with axis := { x := axisCells 0 0 (-41), y := axisCells 0 0 9 } })).map
      (fun t => (t.res, t.axis.x.vout, t.axis.x.acc, t.axis.y.acc)) = some (some 0xFFFF, 0xFF, 0, 9) := by decide
/-- `N_WINDOW = 40`, `acc = 5120`: the velocity wraps to -128. -/
theorem test_flush_wraps :
    (nextOf (exec (.flush .y) { idle with axis := { x := axisCells 0 0 0, y := axisCells 0 0 5120 } })).map (·.res) =
      some (some 0xFF80) := by decide
theorem test_sample_x : (nextOf (exec (.sample .x) readEnd)).map (·.axis.x) = some (axisCells 0x96 0x64 55) := by decide
theorem test_sample_y_inverts :
    (nextOf (exec (.sample .y) (ready 39 (stoppedChannel 0) (stoppedChannel 2198) (axisCells 0 0 0)
      (axisCells 0x64 0x10 5)))).map (·.axis.y) = some (axisCells 0x96 0x64 (-45)) := by decide

/-! ### State machine -/

/-- P2 step 16 in small: X is updated, the missed edge leaves Y alone, the left button is pressed, both channels are
armed again from zero, the lines are low. -/
theorem test_tick_discharge :
    nextOf (exec (.tick 2) readEnd) =
      some
        { readEnd with
          axis := { x := axisCells 0x96 0x64 55, y := axisCells 0x96 0x20 6 }
          chan := { c0 := runningChannel 0 2198, c1 := runningChannel 0 2198 }
          line := { c0 := lowLine, c1 := lowLine }
          btnLeft := true
          mode := .read
          cyc := 1 } := by decide
theorem test_tick_read :
    nextOf (exec (.tick 0) armed) =
      some { armed with mode := .discharge, line := { c0 := SenseLine.reset, c1 := SenseLine.reset } } := by decide
theorem test_senselow : (nextOf (exec .senselow raw)).map (·.line) = some { c0 := lowLine, c1 := lowLine } := by decide
/-- `RELEASE` keeps the level cells. -/
theorem test_release_keeps_level :
    (nextOf (exec .release { raw with line := { c0 := { lowLine with out := true }, c1 := { lowLine with pullup := true } } })).map
      (·.line) = some { c0 := { SenseLine.reset with out := true }, c1 := SenseLine.reset } := by decide
theorem test_buttons_left : (nextOf (exec (.buttons 2) raw)).map (fun t => (t.btnLeft, t.btnRight)) = some (true, false) := by
  decide
theorem test_cadence_counts :
    nextOf (exec .cadence { idle with axis := { x := axisCells 0 0 7, y := axisCells 0 0 (-7) } }) =
      some { idle with axis := { x := axisCells 0 0 7, y := axisCells 0 0 (-7) }, cyc := 1 } := by decide
/-- `N_WINDOW = 40`, `cyc = 39`: the report `(50, -50, 0b01)` is the pattern `0x1CE32`. -/
theorem test_cadence_reports :
    (nextOf (exec .cadence
      { idle with cyc := 39, btnLeft := true, axis := { x := axisCells 0 0 2000, y := axisCells 0 0 (-2000) } })).map
      (fun t => (t.report.map Report.bits, t.cyc, t.axis.x.acc, t.axis.y.vout)) = some (some 0x1CE32, 0, 0, 0xCE) := by
  decide

/-! ### Witnesses: states and operands that meet the hypotheses of the statements -/

theorem witness_StepRunsDecodedCommand :
    let s : State := { idle with cmd := [0x0200000000, 0x0300000001] }
    s.cmd = 0x0200000000 :: [0x0300000001] ∧ decode 0x0200000000 = .instr .arm ∧ (nextOf (step s)).isSome = true := by
  decide

theorem witness_IdleStepHoldsAllState : idle.cmd = [] := rfl

/-- Both clauses: no row has the `op`; a row has it and is not selected. -/
theorem witness_ReservedWordsAreRefusedByName :
    (∀ r ∈ opcodeTable, opField r.value ≠ opField 0x2500000000) ∧
    (∃ r ∈ opcodeTable, opField r.value = opField 0x0800000004 ∧ r.selects 0x0800000004 = false) := by decide

/-- Both sides hold of one word, and both fail of another. -/
theorem witness_DecodedExactlyWhenItsRowIsSelected :
    (∃ r ∈ opcodeTable, r.mnem = .cdelta ∧ r.selects 0x11FFFFFFFF = true) ∧
    (∀ r ∈ opcodeTable, r.selects 0x12FFFFFFFF = false) := by decide

theorem witness_OpcodeRowsAreDisjoint : ∃ r ∈ opcodeTable, r.selects 0x0100000000 = true := by decide

theorem witness_EncodeInvertsDecode : decode 0x1200018000 = .instr (.accum .y 0x8000) := by decide

/-- A state with the window counter at its last value meets the invariants and steps. -/
theorem witness_EveryStepKeepsTheInvariant :
    let s : State := { armed with cyc := 39, cmd := [0x2000000003] }
    s.Inv ∧ (nextOf (step s)).isSome = true := by
  refine ⟨⟨fun _ => ⟨rfl, rfl⟩, ?_, fun _ => rfl⟩, ?_⟩ <;> decide

theorem witness_NoStepChangesAParameter : (nextOf (step { idle with cmd := [0x2400000000] })).isSome = true := by decide

/-- In both phases. -/
theorem witness_NominalOperationsKeepThePhaseInvariant :
    (armed.PhaseInv ∧ (nextOf (exec (.tick 3) armed)).isSome = true) ∧
    (readEnd.PhaseInv ∧ (nextOf (exec (.tick 3) readEnd)).isSome = true) ∧ isNominal (.tick 3) = true := by
  refine ⟨⟨⟨fun _ => ⟨rfl, rfl, rfl, rfl⟩, fun h => ?_⟩, ?_⟩, ⟨⟨fun h => ?_, fun _ _ => ⟨rfl, rfl⟩⟩, ?_⟩, rfl⟩
  · exact absurd h (by decide)
  · decide
  · exact absurd h (by decide)
  · decide

/-- `N_WINDOW = 31`, the last discharge entry of the window, the accumulators at their bound. -/
theorem witness_ShortWindowsNeverOverflow :
    let s : State :=
      { readEnd with params := paramsOf 30, cyc := 30, axis := { x := axisCells 0 0 30720, y := axisCells 0 0 (-30720) } }
    isNominal (.tick 3) = true ∧ s.params.nWindow ≤ 31 ∧ s.AccInv ∧ s.cyc.toNat < s.params.nWindow ∧
      (s.armSeen = true → s.inited = true) ∧ (s.inited = true → s.armedIsRun) ∧
      (nextOf (exec (.tick 3) s)).isSome = true := by
  refine ⟨rfl, ?_, ⟨?_, ?_⟩, ?_, fun _ => rfl, fun _ => ⟨rfl, rfl⟩, ?_⟩ <;> decide

theorem witness_Env1ExcludesEdgesInTheDischargePhase :
    armed.PhaseInv ∧ armed.mode = .read ∧ Env1 (.clk 3) armed := by
  refine ⟨⟨fun _ => ⟨rfl, rfl, rfl, rfl⟩, fun h => ?_⟩, rfl, fun c h => ?_⟩
  · exact absurd h (by decide)
  · cases h

/-- `armSeen` for the first clause, no `INIT` for the second. -/
theorem witness_BrokenDutiesAreRefusedByName :
    armed.armSeen = true ∧ needsInit (.tick 3) = true ∧ raw.inited = false := by decide

theorem witness_InitStopsBothChannels : raw.armSeen = false := rfl

/-- For ArmOpensAFreshWindow, DisarmStopsOneChannel, TstampReturnsTheLatch, IsrunReturnsWhetherCounting,
ClkCountsSelectedRunningCounters, EdgeLatchesOrPends and SampleUpdatesPositionAndAccumulator: initialised, with
channel 0 stopped and channel 1 armed. -/
theorem witness_initialised :
    readEnd.inited = true ∧ (readEnd.chan.get .c0).armed = false ∧ (readEnd.chan.get .c1).armed = true := by decide

theorem witness_EventsBeforeInitLeaveTheRestUnchanged :
    raw.inited = false ∧ ((∃ m, Instr.clk 3 = .clk m) ∨ ∃ c, Instr.clk 3 = .edge c) := ⟨rfl, .inl ⟨3, rfl⟩⟩

/-- The two sides of the half circle, at 1023 and 1024, and equal low bits with other high bits. -/
theorem witness_CdeltaIsTheSignedCircularDifference :
    (((1023 : Word).toNat : Int) - (0 : Word).toNat) % 2048 ≤ 1023 ∧
    1024 ≤ (((1024 : Word).toNat : Int) - (0 : Word).toNat) % 2048 ∧
    (0xF800 : Word).setWidth 11 = (0 : Word).setWidth 11 := by decide

/-- The window counter one before its end, and at its end. -/
theorem witness_CadenceCountsAndReports :
    (({ idle with cyc := 38 } : State).cyc + 1).toNat ≠ idle.params.nWindow ∧
    (({ idle with cyc := 39 } : State).cyc + 1).toNat = idle.params.nWindow := by decide

theorem witness_TickInReadReleasesTheLines : armed.inited = true ∧ armed.mode = .read := ⟨rfl, rfl⟩

theorem witness_TickInDischargeIsItsSubActions : readEnd.inited = true ∧ readEnd.mode = .discharge := ⟨rfl, rfl⟩

/-- One axis missed, the other not, inside a window and at its end. -/
theorem witness_MissedEdgeSkipsItsOwnAxisOnly :
    let s : State := { readEnd with cyc := 39 }
    s.inited = true ∧ s.mode = .discharge ∧ (s.chan.get (channelOf .x)).run = false ∧
      (s.chan.get (channelOf .y)).run = true ∧ (s.cyc + 1).toNat = s.params.nWindow ∧
      (readEnd.cyc + 1).toNat ≠ readEnd.params.nWindow := by decide

theorem witness_ModeIsToggledByTickAlone :
    (nextOf (exec (.tick 0) armed)).isSome = true ∧ (nextOf (exec .cadence armed)).isSome = true ∧
    ∀ b, Instr.cadence ≠ .tick b := by
  refine ⟨by decide, by decide, fun _ h => ?_⟩
  cases h

theorem witness_TimestampIsWrittenOnlyByItsServicedEdge :
    ∃ t, exec (.edge .c0) armed = .next t ∧ armed.inited = true ∧ (t.chan.get .c0).ts ≠ (armed.chan.get .c0).ts :=
  ⟨_, rfl, rfl, by decide⟩

/-- Each of the four cells of a channel does change: the count by `CLK`, the rest by `EDGE`. -/
theorem witness_ChannelCellsChangeOnlyByTheirOwners :
    (∃ t, exec (.clk 3) armed = .next t ∧ (t.chan.get .c0).cnt ≠ (armed.chan.get .c0).cnt) ∧
    (∃ t, exec (.edge .c0) armed = .next t ∧ (t.chan.get .c0).run ≠ (armed.chan.get .c0).run ∧
      (t.chan.get .c0).armed ≠ (armed.chan.get .c0).armed) ∧
    (∃ t, exec (.edge .c0) readEnd = .next t ∧ (t.chan.get .c0).pend ≠ (readEnd.chan.get .c0).pend) :=
  ⟨⟨_, rfl, by decide⟩, ⟨_, rfl, by decide, by decide⟩, ⟨_, rfl, by decide⟩⟩

/-- Each of the other cells does change, by one of its owners. -/
theorem witness_OtherCellsChangeOnlyByTheirOwners :
    (∃ t, exec (.sample .x) readEnd = .next t ∧ (t.axis.get .x).cur ≠ (readEnd.axis.get .x).cur ∧
      (t.axis.get .x).acc ≠ (readEnd.axis.get .x).acc) ∧
    (∃ t, exec (.flush .x) { idle with axis := { x := axisCells 0 0 40, y := axisCells 0 0 0 } } = .next t ∧
      (t.axis.get .x).vout ≠ (idle.axis.get .x).vout) ∧
    (∃ t, exec (.buttons 2) idle = .next t ∧ t.btnLeft ≠ idle.btnLeft) ∧
    (∃ t, exec .cadence idle = .next t ∧ t.cyc ≠ idle.cyc) ∧
    (∃ t, exec .senselow idle = .next t ∧ t.line ≠ idle.line) :=
  ⟨⟨_, rfl, by decide, by decide⟩, ⟨_, rfl, by decide⟩, ⟨_, rfl, by decide⟩, ⟨_, rfl, by decide⟩, ⟨_, rfl, by decide⟩⟩

theorem witness_PendingFlagsAreNeverObserved :
    let t : State := { idle with chan := { c0 := { stoppedChannel 0 with pend := true }, c1 := stoppedChannel 0 } }
    idle.erasePend = t.erasePend ∧ idle ≠ t := by decide

theorem witness_SenseLineCellsAreNeverObserved :
    let t : State := { idle with line := { c0 := lowLine, c1 := SenseLine.reset } }
    idle.eraseLines = t.eraseLines ∧ idle ≠ t := by decide

theorem witness_EdgesCommuteAndClocksDoNot :
    armed.inited = true ∧ (armed.chan.get .c0).armed = true ∧ (armed.chan.get .c0).run = true := by decide

/-- A state for each form that changes nothing. -/
theorem witness_LegalWordsThatChangeNothing :
    idle.inited = true ∧ (∀ c, maskSelects 1 c = true → (readEnd.chan.get c).run = false) ∧
    ((readEnd.chan.get .c0).run = false ∧ (readEnd.chan.get .c0).armed = false) ∧
    (∃ t, exec (.edge .c0) readEnd = .next t ∧ (t.chan.get .c0).armed = false ∧ (t.chan.get .c0).pend = true) ∧
    idle.linesReleased ∧ (∃ t, exec .arm idle = .next t) := by
  refine ⟨rfl, fun c h => ?_, ⟨rfl, rfl⟩, ⟨_, rfl, rfl, rfl⟩, ⟨rfl, rfl⟩, ⟨_, rfl⟩⟩
  cases c
  · rfl
  · exact absurd h (by decide)

/-- A disarmed channel that sees another edge and a clock. -/
theorem witness_DisarmedChannelKeepsItsTimestamp :
    readEnd.inited = true ∧ (readEnd.chan.get .c0).armed = false ∧ neverArms [.edge .c0, .clk 3] readEnd ∧
    ∃ t, execAll [.edge .c0, .clk 3] readEnd = .next t := by
  refine ⟨rfl, rfl, ⟨?_, fun _ _ => ⟨?_, fun _ _ => trivial⟩⟩, ⟨_, rfl⟩⟩ <;> simp [arms]

/-- A channel armed and still running after a clock. -/
theorem witness_StillRunningMeansNoEdgeCame :
    armed.inited = true ∧ (armed.chan.get .c1).armed = (armed.chan.get .c1).run ∧ neverArms [.clk 3] armed ∧
    ∃ t, execAll [.clk 3] armed = .next t ∧ (t.chan.get .c1).run = true := by
  refine ⟨rfl, rfl, ⟨?_, fun _ _ => trivial⟩, ⟨_, rfl, rfl⟩⟩
  simp [arms]

/-- A window in which one clock precedes the edge: the count latched is 1. -/
theorem witness_CapturedCountIsBoundedByTheClocks :
    ∃ u, exec .arm idle = .next u ∧ neverArms [.clk 3, .edge .c0] u ∧
      ∃ t, execAll [.clk 3, .edge .c0] u = .next t ∧ (t.chan.get .c0).ts = 1 := by
  refine ⟨_, rfl, ⟨?_, fun _ _ => ⟨?_, fun _ _ => trivial⟩⟩, ⟨_, rfl, by decide⟩⟩ <;> simp [arms]

/-- The first and the last entry of a window of 40. -/
theorem witness_OneReportPerWindowOfTickPairs :
    idle.inited = true ∧ idle.mode = .discharge ∧ idle.cyc = 0 ∧ 0 < idle.params.nWindow ∧ 39 < idle.params.nWindow := by
  decide

theorem witness_FirstDischargeEntryConsumesTsInit : (paramsOf 39).nWindow ≠ 1 := by decide

/-- A full window, and the two ends of the range of `d`. -/
theorem witness_WindowOfEqualDeltasReturnsTheDelta :
    40 ≤ idle.params.nWindow ∧ -128 ≤ (0xFF80 : Word).toInt ∧ (0x007F : Word).toInt ≤ 127 ∧
    40 = idle.params.nWindow ∧ idle.axis.x.acc = 0 ∧ idle.axis.y.acc = 0 := by decide

theorem witness_CircularDifferenceIsAntisymmetric :
    (((1023 : Word).toNat : Int) - (0 : Word).toNat) % 2048 ≠ 1024 ∧
    (((1024 : Word).toNat : Int) - (0 : Word).toNat) % 2048 = 1024 := by decide

theorem witness_CircularDifferenceIsTranslationInvariant : (cdelta 2047 0 + cdelta 0 1022).natAbs ≤ 1023 := by decide

end Sys2Proof.Tests
end

namespace Sys2Proof.Machine

/-! ### Scope: steps and their commands, the parameters, the contract (spec/00_scope.md) -/

/-- Settles O1: taking the word off the stream and dispatching on its decoding are the two equations of `step`. -/
theorem stepRunsDecodedCommand : Obligations.StepRunsDecodedCommand := by
  intro s w rest i hcmd hdec
  simp only [step, State.takeCommand_cons hcmd, hdec]

/-! #### No operation changes a parameter of the run (R5) -/

@[simp] theorem State.sample_params (s : State) (a : Axis) : (s.sample a).params = s.params := by
  rw [State.sample_eq]

@[simp] theorem State.cadence_params (s : State) : s.cadence.params = s.params := by
  obtain ⟨-, e⟩ | ⟨-, r, e⟩ := s.cadence_cases <;> rw [e]

@[simp] theorem State.beforeCadence_params (s : State) (b : BitVec 2) : (s.beforeCadence b).params = s.params := rfl

@[simp] theorem State.tick_params (s : State) (b : BitVec 2) : (s.tick b).params = s.params := by
  cases hm : s.mode with
  | discharge => simp [State.tick_discharge hm, State.dischargeEntry_eq]
  | read => simp [State.tick_read hm, State.release]

/-- R5: no operation changes `DEAD_TICKS` or `N_WINDOW`. -/
theorem exec_next_params {i : Instr} {s t : State} (h : exec i s = .next t) : t.params = s.params := by
  cases i with
  | init => obtain ⟨-, rfl⟩ := exec_init_next h; rfl
  | arm => obtain ⟨-, rfl⟩ := exec_arm_next h; rfl
  | disarm c => obtain ⟨-, rfl⟩ := exec_disarm_next h; rfl
  | tstamp c => obtain ⟨-, rfl⟩ := exec_tstamp_next h; rfl
  | isrun c => obtain ⟨-, rfl⟩ := exec_isrun_next h; rfl
  | clk m => obtain ⟨-, rfl⟩ | ⟨-, n0, n1, rfl, -, -⟩ := exec_clk_next h <;> rfl
  | edge c => obtain ⟨-, rfl⟩ | ⟨-, -, rfl⟩ | ⟨-, -, rfl⟩ := exec_edge_next h <;> rfl
  | topos v => rw [exec_topos_next h]; rfl
  | cdelta p q => rw [exec_cdelta_next h]; rfl
  | accum a d => rw [exec_accum_next h]; rfl
  | flush a => rw [exec_flush_next h]; rfl
  | sample a => obtain ⟨-, rfl⟩ := exec_sample_next h; simp
  | tick b => obtain ⟨-, rfl⟩ := (State.onceInited_next_iff _ _ _).1 h; simp
  | senselow => rw [exec_senselow_next h]; rfl
  | release => rw [exec_release_next h]; rfl
  | buttons b => rw [exec_buttons_next h]; rfl
  | cadence => rw [exec_cadence_next h]; simp

/-- Settles O16: an idle step only clears the output ports, every other step is one operation. -/
theorem noStepChangesAParameter : Obligations.NoStepChangesAParameter := by
  intro s t h
  obtain ⟨-, rfl⟩ | ⟨w, rest, i, -, -, hexec⟩ := step_cases h
  · rfl
  · have hparams := exec_next_params hexec
    exact hparams

/-! #### The contract (R10, R185, R186), class by class: `INIT`, the six channel commands, the rest -/

theorem inContract_init_iff (s : State) : InContract .init s ↔ s.armSeen = false := by
  simp [InContract, needsInit]

theorem inContract_iff_inited {i : Instr} (h : needsInit i = true) (s : State) : InContract i s ↔ s.inited = true := by
  have hne : i ≠ .init := by rintro rfl; cases h
  simp [InContract, h, hne]

theorem inContract_of_unguarded {i : Instr} (hne : i ≠ .init) (h : needsInit i = false) (s : State) :
    InContract i s := by
  simp [InContract, h, hne]

theorem exec_init_completes_iff (s : State) : (∃ t, exec .init s = .next t) ↔ s.armSeen = false := by
  refine ⟨fun ⟨_, h⟩ => (exec_init_next h).1, fun h => ⟨s.quiet.initChannels, ?_⟩⟩
  simp [exec, execInit, h]

/-- Each of the six channel commands is a next state behind the guard of R186. -/
theorem exec_eq_onceInited {i : Instr} (h : needsInit i = true) (s : State) : ∃ s', exec i s = s.onceInited s' := by
  cases i with
  | arm | disarm | tstamp | isrun | sample | tick => exact ⟨_, rfl⟩
  | init | clk | edge | topos | cdelta | accum | flush | senselow | release | buttons | cadence => cases h

theorem exec_completes_iff_inited {i : Instr} (h : needsInit i = true) (s : State) :
    (∃ t, exec i s = .next t) ↔ s.inited = true := by
  obtain ⟨s', e⟩ := exec_eq_onceInited h s
  simp [e, State.onceInited_next_iff]

/-- An operation without a guard completes in every state: `CLK` and `EDGE` before `INIT` as well (R186). -/
theorem exec_completes_of_unguarded {i : Instr} (hne : i ≠ .init) (h : needsInit i = false) (s : State) :
    ∃ t, exec i s = .next t := by
  cases i with
  | init => exact absurd rfl hne
  | arm | disarm | tstamp | isrun | sample | tick => cases h
  | clk | edge | topos | cdelta | accum | flush | senselow | release | buttons | cadence => exact ⟨_, rfl⟩

/-- Settles O18: for each class of operations the guard `exec` checks is the condition the contract states. -/
theorem operationCompletesExactlyInsideTheContract : Obligations.OperationCompletesExactlyInsideTheContract := by
  intro i s
  by_cases hinit : i = .init
  · subst hinit
    rw [exec_init_completes_iff, inContract_init_iff]
  · cases hguard : needsInit i with
    | true => rw [exec_completes_iff_inited hguard, inContract_iff_inited hguard]
    | false => exact iff_of_true (exec_completes_of_unguarded hinit hguard s) (inContract_of_unguarded hinit hguard s)

end Sys2Proof.Machine

namespace Sys2Proof.Machine

/-! ### State: the invariants, the owners of each cell, the cells nothing reads (spec/10_state.md)

#### The shared layer: what an operation leaves when it is performed -/

/-- The state operation `i` leaves behind where it is performed: `exec` without its guards (R100, R186). -/
def performed : Instr → State → State
  | .init, s => s.quiet.initChannels
  | .arm, s => s.quiet.armBoth
  | .disarm c, s => s.quiet.disarm c
  | .tstamp c, s => s.quiet.answer (s.chan.get c).ts
  | .isrun c, s => s.quiet.answer (resOfBool (s.chan.get c).isRunning)
  | .clk m, s => if s.inited then s.quiet.clock m else s.quiet.unsetChannels
  | .edge c, s => if s.inited then s.quiet.edge c else s.quiet.unsetChannels
  | .topos v, s => s.quiet.answer (topos s.params.deadTicks v)
  | .cdelta p q, s => s.quiet.answer (resOfDelta (cdelta p q))
  | .accum a d, s => s.quiet.accumulate a d.toInt
  | .flush a, s => (s.quiet.flush a).answer (resOfVelocity ((s.quiet.flush a).axis.get a).vout)
  | .sample a, s => s.quiet.sample a
  | .tick b, s => s.quiet.tick b
  | .senselow, s => s.quiet.senseLow
  | .release, s => s.quiet.release
  | .buttons b, s => s.quiet.sampleButtons b
  | .cadence, s => s.quiet.cadence

theorem exec_init_eq_performed (s : State) :
    exec .init s = if s.armSeen then .refused .initAfterArm else .next (performed .init s) := rfl

theorem exec_eq_onceInited_performed {i : Instr} (h : needsInit i = true) (s : State) :
    exec i s = s.onceInited (performed i s) := by
  cases i with
  | arm | disarm | tstamp | isrun | sample | tick => rfl
  | init | clk | edge | topos | cdelta | accum | flush | senselow | release | buttons | cadence => cases h

theorem exec_eq_performed_of_unguarded {i : Instr} (hne : i ≠ .init) (h : needsInit i = false) (s : State) :
    exec i s = .next (performed i s) := by
  cases i with
  | init => exact absurd rfl hne
  | arm | disarm | tstamp | isrun | sample | tick => cases h
  | clk | edge | topos | cdelta | accum | flush | senselow | release | buttons | cadence => rfl

/-- An operation that goes on leaves what `performed` says, whatever its guard. -/
theorem exec_next_performed {i : Instr} {s t : State} (h : exec i s = .next t) : t = performed i s := by
  by_cases hinit : i = .init
  · subst hinit
    exact (exec_init_next h).2
  · cases hguard : needsInit i with
    | true =>
      rw [exec_eq_onceInited_performed hguard] at h
      exact ((State.onceInited_next_iff _ _ _).1 h).2.symm
    | false =>
      rw [exec_eq_performed_of_unguarded hinit hguard] at h
      exact (Host.Outcome.next.inj h).symm

theorem performed_clk_of_inited {s : State} (h : s.inited = true) (m : BitVec 2) :
    performed (.clk m) s = s.quiet.clock m := if_pos h

theorem performed_clk_of_not {s : State} (h : s.inited = false) (m : BitVec 2) :
    performed (.clk m) s = s.quiet.unsetChannels := by
  simp [performed, h]

theorem performed_edge_of_inited {s : State} (h : s.inited = true) (c : Channel) :
    performed (.edge c) s = s.quiet.edge c := if_pos h

theorem performed_edge_of_not {s : State} (h : s.inited = false) (c : Channel) :
    performed (.edge c) s = s.quiet.unsetChannels := by
  simp [performed, h]

/-- Before `INIT` or after it, `CLK` writes capture cells alone (R105, R186). -/
theorem performed_clk_frame (m : BitVec 2) (s : State) :
    ∃ k n, performed (.clk m) s = { s.quiet with chan := k, draws := n } := by
  cases hin : s.inited with
  | false => exact ⟨_, _, performed_clk_of_not hin m⟩
  | true => exact ⟨_, _, performed_clk_of_inited hin m⟩

/-- Before `INIT` or after it, `EDGE` writes capture cells alone (R106, R186). -/
theorem performed_edge_frame (c : Channel) (s : State) :
    ∃ k n, performed (.edge c) s = { s.quiet with chan := k, draws := n } := by
  cases hin : s.inited with
  | false => exact ⟨_, _, performed_edge_of_not hin c⟩
  | true => exact ⟨_, _, performed_edge_of_inited hin c⟩

/-! #### The cells the composite operations leave alone -/

@[simp] theorem State.cadence_chan (s : State) : s.cadence.chan = s.chan := by
  obtain ⟨-, e⟩ | ⟨-, r, e⟩ := s.cadence_cases <;> rw [e]

@[simp] theorem State.cadence_btnLeft (s : State) : s.cadence.btnLeft = s.btnLeft := by
  obtain ⟨-, e⟩ | ⟨-, r, e⟩ := s.cadence_cases <;> rw [e]

@[simp] theorem State.cadence_btnRight (s : State) : s.cadence.btnRight = s.btnRight := by
  obtain ⟨-, e⟩ | ⟨-, r, e⟩ := s.cadence_cases <;> rw [e]

@[simp] theorem State.cadence_mode (s : State) : s.cadence.mode = s.mode := by
  obtain ⟨-, e⟩ | ⟨-, r, e⟩ := s.cadence_cases <;> rw [e]

@[simp] theorem State.cadence_line (s : State) : s.cadence.line = s.line := by
  obtain ⟨-, e⟩ | ⟨-, r, e⟩ := s.cadence_cases <;> rw [e]

@[simp] theorem State.cadence_inited (s : State) : s.cadence.inited = s.inited := by
  obtain ⟨-, e⟩ | ⟨-, r, e⟩ := s.cadence_cases <;> rw [e]

@[simp] theorem State.cadence_armSeen (s : State) : s.cadence.armSeen = s.armSeen := by
  obtain ⟨-, e⟩ | ⟨-, r, e⟩ := s.cadence_cases <;> rw [e]

/-- The count of a pair never leaves the window (R33, R146). -/
theorem State.cadence_cyc_lt {s : State} (h : s.cyc.toNat < s.params.nWindow) :
    s.cadence.cyc.toNat < s.params.nWindow := by
  obtain ⟨hne, e⟩ | ⟨-, r, e⟩ := s.cadence_cases
  · have hsucc := State.cyc_succ h
    rw [e]
    show (s.cyc + 1).toNat < s.params.nWindow
    omega
  · rw [e]
    exact s.params.nWindow_pos

@[simp] theorem State.tick_inited (s : State) (b : BitVec 2) : (s.tick b).inited = s.inited := by
  cases hm : s.mode with
  | discharge =>
    rw [State.tick_discharge hm, State.dischargeEntry_eq]
    exact State.cadence_inited _
  | read => rw [State.tick_read hm]; rfl

/-- Every tick toggles the two-valued `mode` (R140). -/
theorem State.tick_mode_eq_read_iff (s : State) (b : BitVec 2) : (s.tick b).mode = .read ↔ s.mode = .discharge := by
  cases hm : s.mode with
  | discharge => simp [State.tick_discharge hm]
  | read => simp [State.tick_read hm]

theorem State.tick_armSeen_iff (s : State) (b : BitVec 2) :
    (s.tick b).armSeen = true ↔ s.armSeen = true ∨ s.mode = .discharge := by
  cases hm : s.mode with
  | discharge => simp [State.tick_discharge hm, State.dischargeEntry_eq, State.beforeCadence]
  | read => simp [State.tick_read hm, State.release]

theorem State.tick_cyc_lt {s : State} (h : s.cyc.toNat < s.params.nWindow) (b : BitVec 2) :
    (s.tick b).cyc.toNat < s.params.nWindow := by
  cases hm : s.mode with
  | discharge =>
    rw [State.tick_discharge hm, State.dischargeEntry_eq]
    exact State.cadence_cyc_lt (s := s.beforeCadence b) h
  | read =>
    rw [State.tick_read hm]
    exact h

/-- A tick re-arms both channels or leaves both alone, as the phase it enters says (R141). -/
theorem State.tick_chan (s : State) (b : BitVec 2) :
    (s.tick b).chan = s.chan ∨ (s.tick b).chan = { c0 := s.chan.c0.rearmed, c1 := s.chan.c1.rearmed } := by
  cases hm : s.mode with
  | discharge =>
    rw [State.tick_discharge hm, State.dischargeEntry_eq]
    exact .inr (State.cadence_chan _)
  | read =>
    rw [State.tick_read hm]
    exact .inl rfl

/-! #### What an operation can do to one capture channel -/

@[simp] theorem Capture.counted_ts (k : Capture) : k.counted.ts = k.ts := by rw [Capture.counted_eq]
@[simp] theorem Capture.counted_run (k : Capture) : k.counted.run = k.run := by rw [Capture.counted_eq]
@[simp] theorem Capture.counted_armed (k : Capture) : k.counted.armed = k.armed := by rw [Capture.counted_eq]
@[simp] theorem Capture.counted_pend (k : Capture) : k.counted.pend = k.pend := by rw [Capture.counted_eq]

/-- A qualified edge is serviced by an armed channel and remembered by a disarmed one (R106). -/
theorem Capture.edged_cases (k : Capture) :
    (k.armed = true ∧ k.edged = k.interrupt) ∨ (k.armed = false ∧ k.edged = { k with pend := true }) := by
  cases ha : k.armed <;> simp [Capture.edged, ha]

@[simp] theorem Capture.edged_cnt (k : Capture) : k.edged.cnt = k.cnt := by
  obtain ⟨-, e⟩ | ⟨-, e⟩ := k.edged_cases
  · rw [e]; rfl
  · rw [e]

/-- What operation `i` may make of the cells `k` of channel `c` once the channels are initialised. -/
inductive ChannelMove (c : Channel) (k : Capture) : Instr → Capture → Prop
  | keeps (i : Instr) : ChannelMove c k i k
  | stops : ChannelMove c k .init k.stopped
  | arms : ChannelMove c k .arm k.rearmed
  | ticks (b : BitVec 2) : ChannelMove c k (.tick b) k.rearmed
  | disarms : ChannelMove c k (.disarm c) k.disarmed
  | counts (m : BitVec 2) : ChannelMove c k (.clk m) k.counted
  | edges : ChannelMove c k (.edge c) k.edged

theorem State.clock_get (s : State) (m : BitVec 2) (c : Channel) :
    (s.clock m).chan.get c = if maskSelects m c then (s.chan.get c).counted else s.chan.get c := by
  cases c <;> rfl

/-- A write to one channel is that channel's move; the other keeps its cells. -/
theorem ChannelMove.get_set {i : Instr} {d : Channel} {p : PerChannel Capture} {k : Capture}
    (h : ChannelMove d (p.get d) i k) (c : Channel) : ChannelMove c (p.get c) i ((p.set d k).get c) := by
  by_cases hcd : c = d
  · subst hcd
    rw [PerChannel.get_set_self]
    exact h
  · rw [PerChannel.get_set_of_ne p hcd]
    exact .keeps i

theorem performed_channelMove {s : State} (hin : s.inited = true) (i : Instr) (c : Channel) :
    ChannelMove c (s.chan.get c) i ((performed i s).chan.get c) := by
  cases i with
  | init => cases c <;> exact .stops
  | arm => cases c <;> exact .arms
  | disarm d => exact ChannelMove.disarms.get_set c
  | clk m =>
    rw [performed_clk_of_inited hin, State.clock_get]
    split
    · exact .counts m
    · exact .keeps _
  | edge d =>
    rw [performed_edge_of_inited hin]
    exact ChannelMove.edges.get_set c
  | tick b =>
    obtain e | e := s.quiet.tick_chan b <;> simp only [performed, e]
    · exact .keeps _
    · cases c <;> exact .ticks b
  | cadence =>
    simp only [performed, State.cadence_chan]
    exact .keeps _
  | tstamp | isrun | topos | cdelta | accum | flush | sample | senselow | release | buttons => exact .keeps _

/-- The timestamp latch has one writer, the serviced edge, which latches the count (R22, R106). -/
theorem ChannelMove.ts_ne {c : Channel} {k k' : Capture} {i : Instr} (h : ChannelMove c k i k') (hne : k'.ts ≠ k.ts) :
    i = .edge c ∧ k.armed = true ∧ k'.ts = k.cnt := by
  cases h with
  | keeps | stops | arms | ticks | disarms => exact absurd rfl hne
  | counts => exact absurd k.counted_ts hne
  | edges =>
    obtain ⟨ha, e⟩ | ⟨-, e⟩ := k.edged_cases <;> rw [e] at hne ⊢
    · exact ⟨rfl, ha, rfl⟩
    · exact absurd rfl hne

theorem ChannelMove.cnt_ne {c : Channel} {k k' : Capture} {i : Instr} (h : ChannelMove c k i k')
    (hne : k'.cnt ≠ k.cnt) : (∃ m, i = .clk m) ∨ i = .arm ∨ i = .init ∨ ∃ b, i = .tick b := by
  cases h with
  | stops | arms | ticks | counts => simp
  | keeps | disarms => exact absurd rfl hne
  | edges => exact absurd k.edged_cnt hne

theorem ChannelMove.run_ne {c : Channel} {k k' : Capture} {i : Instr} (h : ChannelMove c k i k')
    (hne : k'.run ≠ k.run) : i = .arm ∨ i = .disarm c ∨ i = .init ∨ i = .edge c ∨ ∃ b, i = .tick b := by
  cases h with
  | stops | arms | ticks | disarms | edges => simp
  | keeps => exact absurd rfl hne
  | counts => exact absurd k.counted_run hne

theorem ChannelMove.armed_ne {c : Channel} {k k' : Capture} {i : Instr} (h : ChannelMove c k i k')
    (hne : k'.armed ≠ k.armed) : i = .arm ∨ i = .disarm c ∨ i = .init ∨ i = .edge c ∨ ∃ b, i = .tick b := by
  cases h with
  | stops | arms | ticks | disarms | edges => simp
  | keeps => exact absurd rfl hne
  | counts => exact absurd k.counted_armed hne

theorem ChannelMove.pend_ne {c : Channel} {k k' : Capture} {i : Instr} (h : ChannelMove c k i k')
    (hne : k'.pend ≠ k.pend) : i = .edge c ∨ i = .arm ∨ i = .init ∨ ∃ b, i = .tick b := by
  cases h with
  | stops | arms | ticks | edges => simp
  | keeps | disarms => exact absurd rfl hne
  | counts => exact absurd k.counted_pend hne

/-- Every move writes `armed` and `run` together (R27). -/
theorem ChannelMove.armed_eq_run {c : Channel} {k k' : Capture} {i : Instr} (h : ChannelMove c k i k')
    (heq : k.armed = k.run) : k'.armed = k'.run := by
  cases h with
  | keeps => exact heq
  | stops | arms | ticks | disarms => rfl
  | counts => rw [Capture.counted_armed, Capture.counted_run, heq]
  | edges => obtain ⟨-, e⟩ | ⟨-, e⟩ := k.edged_cases <;> rw [e] <;> [rfl; exact heq]

/-! #### What an operation can do to one axis -/

/-- What operation `i` may make of the cells `x` of axis `a`. -/
inductive AxisMove (a : Axis) (x : AxisState) : Instr → AxisState → Prop
  | keeps (i : Instr) : AxisMove a x i x
  | accumulates (d acc : Word) : AxisMove a x (.accum a d) { x with acc := acc }
  | flushes (v : Byte) : AxisMove a x (.flush a) { x with vout := v, acc := 0 }
  | samples (cur prev acc : Word) : AxisMove a x (.sample a) { x with cur := cur, prev := prev, acc := acc }
  | reports (v : Byte) : AxisMove a x .cadence { x with vout := v, acc := 0 }
  | ticks (b : BitVec 2) (x' : AxisState) : AxisMove a x (.tick b) x'

/-- A write to one axis is that axis's move; the other keeps its cells. -/
theorem AxisMove.get_set {i : Instr} {b : Axis} {p : PerAxis AxisState} {x : AxisState}
    (h : AxisMove b (p.get b) i x) (a : Axis) : AxisMove a (p.get a) i ((p.set b x).get a) := by
  by_cases hab : a = b
  · subst hab
    rw [PerAxis.get_set_self]
    exact h
  · rw [PerAxis.get_set_of_ne p hab]
    exact .keeps i

theorem performed_axisMove (i : Instr) (s : State) (a : Axis) :
    AxisMove a (s.axis.get a) i ((performed i s).axis.get a) := by
  cases i with
  | clk m =>
    obtain ⟨k, n, e⟩ := performed_clk_frame m s
    rw [e]
    exact .keeps _
  | edge c =>
    obtain ⟨k, n, e⟩ := performed_edge_frame c s
    rw [e]
    exact .keeps _
  | accum b d => exact (AxisMove.accumulates d _).get_set a
  | flush b => exact (AxisMove.flushes _).get_set a
  | sample b =>
    simp only [performed, State.sample_eq]
    exact (AxisMove.samples _ _ _).get_set a
  | tick b => exact .ticks b _
  | cadence =>
    obtain ⟨-, e⟩ | ⟨-, r, e⟩ := s.quiet.cadence_cases <;> simp only [performed, e]
    · exact .keeps _
    · cases a <;> exact .reports _
  | init | arm | disarm | tstamp | isrun | topos | cdelta | senselow | release | buttons => exact .keeps _

theorem AxisMove.position_ne {a : Axis} {x x' : AxisState} {i : Instr} (h : AxisMove a x i x')
    (hne : x'.cur ≠ x.cur ∨ x'.prev ≠ x.prev) : i = .sample a ∨ ∃ b, i = .tick b := by
  cases h with
  | samples | ticks => simp
  | keeps | accumulates | flushes | reports => simp at hne

theorem AxisMove.acc_ne {a : Axis} {x x' : AxisState} {i : Instr} (h : AxisMove a x i x') (hne : x'.acc ≠ x.acc) :
    (∃ d, i = .accum a d) ∨ i = .flush a ∨ i = .sample a ∨ i = .cadence ∨ ∃ b, i = .tick b := by
  cases h with
  | accumulates | flushes | samples | reports | ticks => simp
  | keeps => exact absurd rfl hne

theorem AxisMove.vout_ne {a : Axis} {x x' : AxisState} {i : Instr} (h : AxisMove a x i x') (hne : x'.vout ≠ x.vout) :
    i = .flush a ∨ i = .cadence ∨ ∃ b, i = .tick b := by
  cases h with
  | flushes | reports | ticks => simp
  | keeps | accumulates | samples => exact absurd rfl hne

/-! #### What an operation can do to the other cells -/

/-- `mode` has one writer (R140). -/
theorem performed_mode {i : Instr} (h : ∀ b, i ≠ .tick b) (s : State) : (performed i s).mode = s.mode := by
  cases i with
  | tick b => exact absurd rfl (h b)
  | clk m => obtain ⟨k, n, e⟩ := performed_clk_frame m s; rw [e]; rfl
  | edge c => obtain ⟨k, n, e⟩ := performed_edge_frame c s; rw [e]; rfl
  | cadence => exact State.cadence_mode _
  | init | arm | disarm | tstamp | isrun | topos | cdelta | accum | flush | sample | senselow | release | buttons =>
    rfl

theorem performed_buttons_ne {i : Instr} {s : State}
    (hne : (performed i s).btnLeft ≠ s.btnLeft ∨ (performed i s).btnRight ≠ s.btnRight) :
    (∃ b, i = .buttons b) ∨ ∃ b, i = .tick b := by
  cases i with
  | buttons | tick => simp
  | clk m => obtain ⟨k, n, e⟩ := performed_clk_frame m s; simp [e] at hne
  | edge c => obtain ⟨k, n, e⟩ := performed_edge_frame c s; simp [e] at hne
  | cadence => simp [performed] at hne
  | init | arm | disarm | tstamp | isrun | topos | cdelta | accum | flush | sample | senselow | release =>
    exact absurd rfl (hne.resolve_left (absurd rfl))

theorem performed_cyc_ne {i : Instr} {s : State} (hne : (performed i s).cyc ≠ s.cyc) :
    i = .cadence ∨ ∃ b, i = .tick b := by
  cases i with
  | cadence | tick => simp
  | clk m => obtain ⟨k, n, e⟩ := performed_clk_frame m s; simp [e] at hne
  | edge c => obtain ⟨k, n, e⟩ := performed_edge_frame c s; simp [e] at hne
  | init | arm | disarm | tstamp | isrun | topos | cdelta | accum | flush | sample | senselow | release | buttons =>
    exact absurd rfl hne

theorem performed_line_ne {i : Instr} {s : State} (hne : (performed i s).line ≠ s.line) :
    i = .senselow ∨ i = .release ∨ ∃ b, i = .tick b := by
  cases i with
  | senselow | release | tick => simp
  | clk m => obtain ⟨k, n, e⟩ := performed_clk_frame m s; simp [e] at hne
  | edge c => obtain ⟨k, n, e⟩ := performed_edge_frame c s; simp [e] at hne
  | cadence => exact absurd (State.cadence_line _) hne
  | init | arm | disarm | tstamp | isrun | topos | cdelta | accum | flush | sample | buttons => exact absurd rfl hne

/-- The ghost bit `inited` has one writer (R35). -/
theorem performed_inited {i : Instr} (h : i ≠ .init) (s : State) : (performed i s).inited = s.inited := by
  cases i with
  | init => exact absurd rfl h
  | clk m => obtain ⟨k, n, e⟩ := performed_clk_frame m s; rw [e]; rfl
  | edge c => obtain ⟨k, n, e⟩ := performed_edge_frame c s; rw [e]; rfl
  | cadence => exact State.cadence_inited _
  | tick b => exact State.tick_inited _ b
  | arm | disarm | tstamp | isrun | topos | cdelta | accum | flush | sample | senselow | release | buttons => rfl

/-- The ghost bit `armSeen` is set exactly by the operations that open a window (R35, R101, R142). -/
theorem performed_armSeen_iff (i : Instr) (s : State) :
    (performed i s).armSeen = true ↔ s.armSeen = true ∨ arms i s := by
  cases i with
  | arm => simp [performed, arms]
  | tick b => simp [performed, arms, State.tick_armSeen_iff]
  | clk m => obtain ⟨k, n, e⟩ := performed_clk_frame m s; simp [e, arms]
  | edge c => obtain ⟨k, n, e⟩ := performed_edge_frame c s; simp [e, arms]
  | cadence => simp [performed, arms]
  | init | disarm | tstamp | isrun | topos | cdelta | accum | flush | sample | senselow | release | buttons =>
    exact (or_iff_left (by simp [arms])).symm

/-! #### The invariants -/

/-- An operation that opens a window is performed after `INIT` only (R186). -/
theorem inited_of_arms {i : Instr} {s t : State} (harms : arms i s) (h : exec i s = .next t) : s.inited = true := by
  obtain rfl | ⟨⟨b, rfl⟩, -⟩ := harms
  · exact (exec_arm_next h).1
  · exact (exec_tick_next h).1

theorem exec_keeps_armedIsRun {i : Instr} {s t : State} (h : exec i s = .next t)
    (hs : s.inited = true → s.armedIsRun) : t.inited = true → t.armedIsRun := by
  obtain rfl := exec_next_performed h
  intro hint
  by_cases hinit : i = .init
  · subst hinit
    exact ⟨rfl, rfl⟩
  · have hin : s.inited = true := (performed_inited hinit s).symm.trans hint
    obtain ⟨h0, h1⟩ := hs hin
    exact ⟨(performed_channelMove hin i .c0).armed_eq_run h0, (performed_channelMove hin i .c1).armed_eq_run h1⟩

theorem exec_keeps_cyc_lt {i : Instr} {s t : State} (h : exec i s = .next t) (hs : s.cyc.toNat < s.params.nWindow) :
    t.cyc.toNat < t.params.nWindow := by
  rw [exec_next_params h]
  obtain rfl := exec_next_performed h
  by_cases hcyc : (performed i s).cyc = s.cyc
  · rw [hcyc]
    exact hs
  · obtain rfl | ⟨b, rfl⟩ := performed_cyc_ne hcyc
    · exact State.cadence_cyc_lt (s := s.quiet) hs
    · exact State.tick_cyc_lt (s := s.quiet) hs b

theorem exec_keeps_armSeen_inited {i : Instr} {s t : State} (h : exec i s = .next t)
    (hs : s.armSeen = true → s.inited = true) : t.armSeen = true → t.inited = true := by
  intro harm
  by_cases hinit : i = .init
  · subst hinit
    rw [(exec_init_next h).2]
    rfl
  · have hp := exec_next_performed h
    rw [hp, performed_armSeen_iff] at harm
    rw [hp, performed_inited hinit]
    exact harm.elim hs (inited_of_arms · h)

theorem exec_keeps_inv {i : Instr} {s t : State} (hs : s.Inv) (h : exec i s = .next t) : t.Inv := by
  obtain ⟨hflags, hcyc, hghost⟩ := hs
  exact ⟨exec_keeps_armedIsRun h hflags, exec_keeps_cyc_lt h hcyc, exec_keeps_armSeen_inited h hghost⟩

/-- Settles O13: an idle step writes the ports alone, and an operation keeps each of the three clauses; taking the
command word off the stream touches no cell they read. -/
theorem everyStepKeepsTheInvariant : Obligations.EveryStepKeepsTheInvariant := by
  intro s t hs h
  obtain ⟨-, rfl⟩ | ⟨w, rest, i, -, -, hexec⟩ := step_cases h
  · exact hs
  · exact exec_keeps_inv (s := { s with cmd := rest }) hs hexec

/-- The read entry leaves both lines released (R144). -/
theorem State.release_linesReleased (s : State) : s.release.linesReleased := ⟨rfl, rfl⟩

/-- The discharge entry leaves both lines driven low (R143). -/
theorem State.dischargeEntry_linesLow (s : State) (b : BitVec 2) : (s.dischargeEntry b).linesLow := by
  rw [State.dischargeEntry_eq, State.linesLow, State.cadence_line]
  exact ⟨rfl, rfl⟩

/-- A tick after `INIT` establishes the phase invariant, whatever held before it (R41 (c), (d)). -/
theorem State.tick_phaseInv {s : State} (hin : s.inited = true) (b : BitVec 2) : (s.tick b).PhaseInv := by
  cases hm : s.mode with
  | discharge =>
    have hread : (s.tick b).mode = .read := (s.tick_mode_eq_read_iff b).2 hm
    have harm : (s.tick b).armSeen = true := (s.tick_armSeen_iff b).2 (.inr hm)
    have hlow : (s.tick b).linesLow := by
      rw [State.tick_discharge hm]
      exact s.dischargeEntry_linesLow b
    exact ⟨fun _ => ⟨(s.tick_inited b).trans hin, harm, hlow⟩, fun hdis => by simp [hread] at hdis⟩
  | read =>
    rw [State.tick_read hm]
    exact ⟨nofun, fun _ _ => s.release_linesReleased⟩

/-- `INIT` is performed before any arming only, where `mode` is Discharge and nothing is asked of the lines. -/
theorem exec_init_phaseInv {s t : State} (hs : s.PhaseInv) (h : exec .init s = .next t) : t.PhaseInv := by
  obtain ⟨harm, rfl⟩ := exec_init_next h
  obtain ⟨hread, -⟩ := hs
  refine ⟨fun hm => ?_, fun _ harm' => ?_⟩
  · obtain ⟨-, harm', -⟩ := hread hm
    rw [harm] at harm'
    cases harm'
  · rw [State.initChannels_armSeen, State.quiet_armSeen, harm] at harm'
    cases harm'

/-- Settles O14: `CLK` and `EDGE` write no cell the invariant reads, a tick establishes it whatever held before, and
`INIT` is performed only where it asks nothing. -/
theorem nominalOperationsKeepThePhaseInvariant : Obligations.NominalOperationsKeepThePhaseInvariant := by
  intro i s t hnominal hs h
  cases i with
  | init => exact exec_init_phaseInv hs h
  | tick b =>
    obtain ⟨hin, -⟩ := exec_tick_next h
    rw [exec_next_performed h]
    exact State.tick_phaseInv (s := s.quiet) hin b
  | clk m =>
    obtain ⟨k, n, e⟩ := performed_clk_frame m s
    rw [exec_next_performed h, e]
    exact hs
  | edge c =>
    obtain ⟨k, n, e⟩ := performed_edge_frame c s
    rw [exec_next_performed h, e]
    exact hs
  | arm | disarm | tstamp | isrun | topos | cdelta | accum | flush | sample | senselow | release | buttons | cadence =>
    cases hnominal

/-! #### Cells that nothing reads -/

section
variable {E : State → State}

theorem ite_congr_erasure (c : Bool) {s s' t t' : State} (hs : E s = E s') (ht : E t = E t') :
    E (if c then s else t) = E (if c then s' else t') := by
  cases c with
  | false => exact ht
  | true => exact hs

/-- The guards read the two ghost bits alone, so an outcome is determined up to `E` by these and the state left. -/
theorem mapNext_exec_congr {i : Instr} {s t : State} (hin : s.inited = t.inited) (harm : s.armSeen = t.armSeen)
    (hE : E (performed i s) = E (performed i t)) : mapNext E (exec i s) = mapNext E (exec i t) := by
  have hnext : mapNext E (.next (performed i s)) = mapNext E (.next (performed i t)) := congrArg Host.Outcome.next hE
  by_cases hinit : i = .init
  · subst hinit
    rw [exec_init_eq_performed, exec_init_eq_performed, harm]
    split
    · rfl
    · exact hnext
  · cases hguard : needsInit i with
    | true =>
      rw [exec_eq_onceInited_performed hguard, exec_eq_onceInited_performed hguard, State.onceInited, State.onceInited,
        hin]
      split
      · exact hnext
      · rfl
    | false =>
      rw [exec_eq_performed_of_unguarded hinit hguard, exec_eq_performed_of_unguarded hinit hguard]
      exact hnext

/-- If what an operation leaves of a state and of its erasure by `E` are alike up to `E`, then so are its outcomes in
any two states with one erasure. -/
theorem mapNext_exec_eq_of_erasure (hin : ∀ s, (E s).inited = s.inited) (harm : ∀ s, (E s).armSeen = s.armSeen)
    (hE : ∀ i s, E (performed i (E s)) = E (performed i s)) (i : Instr) (s t : State) (h : E s = E t) :
    mapNext E (exec i s) = mapNext E (exec i t) := by
  have toErasure (u : State) : mapNext E (exec i u) = mapNext E (exec i (E u)) :=
    mapNext_exec_congr (hin u).symm (harm u).symm (hE i u).symm
  rw [toErasure s, h, ← toErasure t]

end

/-- The count of a pair reads neither a capture channel nor a sense line (R146). -/
theorem State.cadence_with_chan_line (s : State) (k : PerChannel Capture) (l : PerChannel SenseLine) :
    State.cadence { s with chan := k, line := l } = { s.cadence with chan := k, line := l } := by
  by_cases h : (s.cyc + 1).toNat = s.params.nWindow
  · rw [State.cadence_of_eq h, State.cadence_of_eq (s := { s with chan := k, line := l }) h]
  · rw [State.cadence_of_ne h, State.cadence_of_ne (s := { s with chan := k, line := l }) h]

/-! The pending-edge flags (R25). -/

theorem State.erasePend_erasePend (s : State) : s.erasePend.erasePend = s.erasePend := rfl

theorem State.erasePend_quiet (s : State) : s.erasePend.quiet = s.quiet.erasePend := rfl

theorem Capture.counted_erasePend (k : Capture) :
    Capture.counted { k with pend := false } = { k.counted with pend := false } := by
  rw [Capture.counted_eq, Capture.counted_eq]

/-- An edge decides by `armed`, never by `pend` (R106). -/
theorem Capture.edged_erasePend (k : Capture) :
    { Capture.edged { k with pend := false } with pend := false } = { k.edged with pend := false } := by
  cases ha : k.armed <;> simp [Capture.edged, Capture.interrupt, ha]

theorem State.clock_erasePend (s : State) (m : BitVec 2) : s.erasePend.clock m = (s.clock m).erasePend := by
  cases h0 : maskSelects m .c0 <;> cases h1 : maskSelects m .c1 <;>
    simp [State.clock, State.erasePend, h0, h1, Capture.counted_erasePend]

theorem State.edge_erasePend (s : State) (c : Channel) : (s.erasePend.edge c).erasePend = (s.edge c).erasePend := by
  have hk := Capture.edged_erasePend (s.chan.get c)
  cases c with
  | c0 => exact congrArg (fun k => { s.erasePend with chan := { s.erasePend.chan with c0 := k } }) hk
  | c1 => exact congrArg (fun k => { s.erasePend with chan := { s.erasePend.chan with c1 := k } }) hk

theorem State.cadence_erasePend (s : State) : s.erasePend.cadence = s.cadence.erasePend := by
  refine (s.cadence_with_chan_line _ s.line).trans ?_
  simp [State.erasePend]

theorem State.tick_erasePend (s : State) (b : BitVec 2) : s.erasePend.tick b = (s.tick b).erasePend := by
  cases hm : s.mode with
  | discharge =>
    have hbefore : s.erasePend.beforeCadence b = (s.beforeCadence b).erasePend := rfl
    rw [State.tick_discharge hm, State.tick_discharge (s := s.erasePend) hm, State.dischargeEntry_eq,
      State.dischargeEntry_eq, hbefore, State.cadence_erasePend]
    rfl
  | read =>
    rw [State.tick_read hm, State.tick_read (s := s.erasePend) hm]
    rfl

theorem performed_erasePend (i : Instr) (s : State) :
    (performed i s.erasePend).erasePend = (performed i s).erasePend := by
  cases i with
  | disarm c | tstamp c | isrun c => cases c <;> rfl
  | clk m =>
    have hclock := congrArg State.erasePend (s.quiet.clock_erasePend m)
    exact ite_congr_erasure s.inited hclock rfl
  | edge c => exact ite_congr_erasure s.inited (s.quiet.edge_erasePend c) rfl
  | sample a => cases a <;> rfl
  | tick b =>
    simp only [performed, State.erasePend_quiet, State.tick_erasePend, State.erasePend_erasePend]
  | cadence =>
    simp only [performed, State.erasePend_quiet, State.cadence_erasePend, State.erasePend_erasePend]
  | init | arm | topos | cdelta | accum | flush | senselow | release | buttons => rfl

/-- Settles O44: what an operation leaves of either state is, up to `pend`, what it leaves of their common erasure. -/
theorem pendingFlagsAreNeverObserved : Obligations.PendingFlagsAreNeverObserved :=
  mapNext_exec_eq_of_erasure (fun _ => rfl) (fun _ => rfl) performed_erasePend

/-! The sense-line cells (R34). -/

theorem State.eraseLines_eraseLines (s : State) : s.eraseLines.eraseLines = s.eraseLines := rfl

theorem State.eraseLines_quiet (s : State) : s.eraseLines.quiet = s.quiet.eraseLines := rfl

theorem State.cadence_eraseLines (s : State) : s.eraseLines.cadence = s.cadence.eraseLines := by
  refine (s.cadence_with_chan_line s.chan _).trans ?_
  simp [State.eraseLines]

theorem State.tick_eraseLines (s : State) (b : BitVec 2) :
    (s.eraseLines.tick b).eraseLines = (s.tick b).eraseLines := by
  cases hm : s.mode with
  | discharge =>
    have hbefore : (s.eraseLines.beforeCadence b).eraseLines = (s.beforeCadence b).eraseLines := rfl
    have hcadence : (s.eraseLines.beforeCadence b).cadence.eraseLines = (s.beforeCadence b).cadence.eraseLines := by
      rw [← State.cadence_eraseLines, hbefore, State.cadence_eraseLines]
    rw [State.tick_discharge hm, State.tick_discharge (s := s.eraseLines) hm, State.dischargeEntry_eq,
      State.dischargeEntry_eq]
    exact congrArg (fun u => { u with mode := .read }) hcadence
  | read =>
    rw [State.tick_read hm, State.tick_read (s := s.eraseLines) hm]
    rfl

theorem performed_eraseLines (i : Instr) (s : State) :
    (performed i s.eraseLines).eraseLines = (performed i s).eraseLines := by
  cases i with
  | clk | edge => exact ite_congr_erasure (E := State.eraseLines) s.inited rfl rfl
  | tick b => exact s.quiet.tick_eraseLines b
  | cadence =>
    simp only [performed, State.eraseLines_quiet, State.cadence_eraseLines, State.eraseLines_eraseLines]
  | init | arm | disarm | tstamp | isrun | topos | cdelta | accum | flush | sample | senselow | release | buttons => rfl

/-- Settles O45: as O44, for the cells `eraseLines` forgets. -/
theorem senseLineCellsAreNeverObserved : Obligations.SenseLineCellsAreNeverObserved :=
  mapNext_exec_eq_of_erasure (fun _ => rfl) (fun _ => rfl) performed_eraseLines

/-! #### The owners of each cell -/

/-- Settles O40: a tick toggles the two-valued `mode`, and no other operation writes it. -/
theorem modeIsToggledByTickAlone : Obligations.ModeIsToggledByTickAlone := by
  intro i s t h
  obtain rfl := exec_next_performed h
  refine ⟨?_, fun hne => performed_mode hne s⟩
  rintro ⟨b, rfl⟩
  exact State.tick_mode_eq_read_iff s.quiet b

/-- Settles O41: of the moves of a channel the serviced edge alone writes `ts`. -/
theorem timestampIsWrittenOnlyByItsServicedEdge : Obligations.TimestampIsWrittenOnlyByItsServicedEdge := by
  intro i s t c hin h hne
  obtain rfl := exec_next_performed h
  exact (performed_channelMove hin i c).ts_ne hne

/-- Settles O42: cell by cell, over the moves of a channel. -/
theorem channelCellsChangeOnlyByTheirOwners : Obligations.ChannelCellsChangeOnlyByTheirOwners := by
  intro i s t c hin h
  obtain rfl := exec_next_performed h
  have hmove := performed_channelMove hin i c
  exact ⟨hmove.cnt_ne, hmove.run_ne, hmove.armed_ne, hmove.pend_ne⟩

/-- Settles O43: the decoder cells by the moves of an axis, the rest cell by cell. -/
theorem otherCellsChangeOnlyByTheirOwners : Obligations.OtherCellsChangeOnlyByTheirOwners := by
  intro i s t h
  obtain rfl := exec_next_performed h
  exact ⟨fun a => (performed_axisMove i s a).position_ne, fun a => (performed_axisMove i s a).acc_ne,
    fun a => (performed_axisMove i s a).vout_ne, performed_buttons_ne, performed_cyc_ne, performed_line_ne⟩

/-! #### Reset -/

/-- Settles O11: each clause is a field of `State.resetWith`. -/
theorem resetLeavesTheTablesValues : Obligations.ResetLeavesTheTablesValues :=
  ⟨fun _ _ _ => ⟨_, _, rfl, rfl, _, rfl⟩, Config.params, Config.tsInit .c0, Config.tsInit .c1, rfl, rfl⟩

/-- Reset meets the invariants whatever the open parameters: nothing is initialised or armed, `mode` is Discharge, and
`cyc` and the accumulators are zero. -/
theorem State.resetWith_inv (p : Params) (ts0 ts1 : Word) : (State.resetWith p ts0 ts1).Inv :=
  ⟨nofun, p.nWindow_pos, nofun⟩

theorem State.resetWith_phaseInv (p : Params) (ts0 ts1 : Word) : (State.resetWith p ts0 ts1).PhaseInv :=
  ⟨nofun, fun _ => nofun⟩

theorem State.resetWith_accInv (p : Params) (ts0 ts1 : Word) : (State.resetWith p ts0 ts1).AccInv :=
  ⟨le_rfl, le_rfl⟩

/-- Settles O12: `State.reset` is `State.resetWith` at the design's parameters. -/
theorem resetMeetsTheInvariants : Obligations.ResetMeetsTheInvariants := by
  have hreset (p : Params) (ts0 ts1 : Word) :
      (State.resetWith p ts0 ts1).Inv ∧ (State.resetWith p ts0 ts1).PhaseInv ∧ (State.resetWith p ts0 ts1).AccInv :=
    ⟨State.resetWith_inv p ts0 ts1, State.resetWith_phaseInv p ts0 ts1, State.resetWith_accInv p ts0 ts1⟩
  exact ⟨hreset, hreset _ _ _⟩

end Sys2Proof.Machine

namespace Sys2Proof.Machine

/-! ### Memory: the timestamp latches, the command stream, the order of operations (spec/20_memory.md)

#### Runs of operations -/

theorem execAll_cons_of_next {i : Instr} {s u : State} (h : exec i s = .next u) (is : List Instr) :
    execAll (i :: is) s = execAll is u := by
  simp only [execAll, h]

theorem execAll_cons_next {i : Instr} {is : List Instr} {s t : State} (h : execAll (i :: is) s = .next t) :
    ∃ u, exec i s = .next u ∧ execAll is u = .next t := by
  cases hi : exec i s with
  | next u => exact ⟨u, rfl, (execAll_cons_of_next hi is).symm.trans h⟩
  | fault | refused => simp [execAll, hi] at h

theorem execAll_pair {i j : Instr} {s u t : State} (hi : exec i s = .next u) (hj : exec j u = .next t) :
    execAll [i, j] s = .next t :=
  (execAll_cons_of_next hi [j]).trans (execAll_cons_of_next hj [])

/-- What every operation that opens no window keeps, every run without an arming keeps (R70). -/
theorem execAll_keeps_of_neverArms {P : State → Prop}
    (hkeep : ∀ {i s t}, P s → ¬ arms i s → exec i s = .next t → P t) {is : List Instr} {s t : State} (hs : P s)
    (hnever : neverArms is s) (h : execAll is s = .next t) : P t := by
  induction is generalizing s with
  | nil => exact Host.Outcome.next.inj h ▸ hs
  | cons i is ih =>
    obtain ⟨hi, hrest⟩ := hnever
    obtain ⟨u, hu, ht⟩ := execAll_cons_next h
    exact ih (hkeep hs hi hu) (hrest u hu) ht

/-! #### A disarmed channel between two armings (R70, R102, R163) -/

/-- No operation takes the channels' initialisation back (R35). -/
theorem exec_keeps_inited {i : Instr} {s t : State} (hin : s.inited = true) (h : exec i s = .next t) :
    t.inited = true := by
  by_cases hinit : i = .init
  · subst hinit
    rw [(exec_init_next h).2]
    rfl
  · rw [exec_next_performed h, performed_inited hinit, hin]

theorem ChannelMove.ts_of_disarmed {c : Channel} {k k' : Capture} {i : Instr} (h : ChannelMove c k i k')
    (hk : k.armed = false) : k'.ts = k.ts := by
  by_contra hne
  obtain ⟨-, harmed, -⟩ := h.ts_ne hne
  rw [hk] at harmed
  cases harmed

/-- A disarmed channel is armed by `ARM` and by a tick alone (R24). -/
theorem ChannelMove.armed_of_disarmed {c : Channel} {k k' : Capture} {i : Instr} (h : ChannelMove c k i k')
    (hk : k.armed = false) : k'.armed = false ∨ i = .arm ∨ ∃ b, i = .tick b := by
  cases h with
  | keeps => exact .inl hk
  | stops | disarms => exact .inl rfl
  | counts => exact .inl (k.counted_armed.trans hk)
  | edges => obtain ⟨-, e⟩ | ⟨-, e⟩ := k.edged_cases <;> rw [e] <;> [exact .inl rfl; exact .inl hk]
  | arms | ticks => simp

/-- A tick that enters the read phase leaves the channels alone (R144). -/
theorem State.tick_chan_of_read {s : State} (hm : s.mode = .read) (b : BitVec 2) : (s.tick b).chan = s.chan := by
  rw [State.tick_read hm]
  rfl

/-- An operation that opens no window leaves a disarmed channel disarmed. -/
theorem performed_armed_of_disarmed {i : Instr} {s : State} {c : Channel} (hin : s.inited = true)
    (hd : (s.chan.get c).armed = false) (hi : ¬ arms i s) : ((performed i s).chan.get c).armed = false := by
  obtain h | rfl | ⟨b, rfl⟩ := (performed_channelMove hin i c).armed_of_disarmed hd
  · exact h
  · exact absurd (.inl rfl) hi
  · cases hm : s.mode with
    | discharge => exact absurd (.inr ⟨⟨b, rfl⟩, hm⟩) hi
    | read =>
      have hchan : (performed (.tick b) s).chan = s.chan := State.tick_chan_of_read (s := s.quiet) hm b
      rw [hchan, hd]

/-- Channel `c` is disarmed after `INIT`, and its timestamp latch holds `v`. -/
def State.HoldsDisarmed (c : Channel) (v : Word) (s : State) : Prop :=
  s.inited = true ∧ (s.chan.get c).ts = v ∧ (s.chan.get c).armed = false

theorem exec_keeps_holdsDisarmed {c : Channel} {v : Word} {i : Instr} {s t : State} (hs : s.HoldsDisarmed c v)
    (hi : ¬ arms i s) (h : exec i s = .next t) : t.HoldsDisarmed c v := by
  obtain ⟨hin, hts, hd⟩ := hs
  have hin' := exec_keeps_inited hin h
  obtain rfl := exec_next_performed h
  exact ⟨hin', ((performed_channelMove hin i c).ts_of_disarmed hd).trans hts, performed_armed_of_disarmed hin hd hi⟩

/-- Settles O48: a disarmed channel with its timestamp is kept by every operation that opens no window. -/
theorem disarmedChannelKeepsItsTimestamp : Obligations.DisarmedChannelKeepsItsTimestamp := by
  intro is s t c hin hd hnever h
  have hs : s.HoldsDisarmed c (s.chan.get c).ts := ⟨hin, rfl, hd⟩
  obtain ⟨-, hts, hd'⟩ := execAll_keeps_of_neverArms exec_keeps_holdsDisarmed hs hnever h
  exact ⟨hts, hd'⟩

/-! #### Command words as bytes (R62, D23) -/

/-- A word is its five bytes, most significant first. -/
theorem bytes_append (w : CmdWord) :
    w.extractLsb' 32 8 ++ w.extractLsb' 24 8 ++ w.extractLsb' 16 8 ++ w.extractLsb' 8 8 ++ w.extractLsb' 0 8 = w := by
  iterate 4 rw [BitVec.extractLsb'_append_extractLsb'_eq_extractLsb' (by rfl)]
  exact BitVec.extractLsb'_eq_self

/-- Reading takes the five bytes of a word off the front of a sequence (R62, R63). -/
theorem wordsOfBytes_bytesOfWord_append (w : CmdWord) (bs : List Byte) :
    wordsOfBytes (bytesOfWord w ++ bs) = (wordsOfBytes bs).map (w :: ·) :=
  congrArg (fun v => (wordsOfBytes bs).map (v :: ·)) (bytes_append w)

/-- Settles O8, by induction on the words. -/
theorem commandBytesReadBack : Obligations.CommandBytesReadBack := by
  intro ws
  induction ws with
  | nil => rfl
  | cons w ws ih => rw [List.flatMap_cons, wordsOfBytes_bytesOfWord_append, ih, Option.map_some]

/-! #### The order of edges and clocks (R68, R106) -/

theorem exec_clk_of_inited {s : State} (h : s.inited = true) (m : BitVec 2) :
    exec (.clk m) s = .next (s.quiet.clock m) :=
  congrArg Host.Outcome.next (performed_clk_of_inited h m)

theorem exec_edge_of_inited {s : State} (h : s.inited = true) (c : Channel) :
    exec (.edge c) s = .next (s.quiet.edge c) :=
  congrArg Host.Outcome.next (performed_edge_of_inited h c)

/-- Each edge writes its own channel, from that channel's cells alone (R106). -/
theorem State.edge_comm (s : State) (c d : Channel) : (s.edge c).edge d = (s.edge d).edge c := by
  cases c <;> cases d <;> rfl

theorem State.edge_get_self (s : State) (c : Channel) : (s.edge c).chan.get c = (s.chan.get c).edged :=
  PerChannel.get_set_self _ _ _

theorem maskSelects_three (c : Channel) : maskSelects 3 c = true := by cases c <;> rfl

/-- `CLK 3` counts both channels (R105). -/
theorem State.clock_three_get (s : State) (c : Channel) : (s.clock 3).chan.get c = (s.chan.get c).counted := by
  rw [State.clock_get, if_pos (maskSelects_three c)]

theorem Capture.counted_cnt_of_run {k : Capture} (h : k.run = true) : k.counted.cnt = k.cnt + 1 := by
  rw [Capture.counted_eq, h]
  rfl

theorem Capture.edged_ts_of_armed {k : Capture} (h : k.armed = true) : k.edged.ts = k.cnt := by
  rw [Capture.edged, if_pos h]
  rfl

/-- Settles O46: the edges write two channels; a clock before the edge moves the count the edge latches, a clock after
it writes no timestamp. -/
theorem edgesCommuteAndClocksDoNot : Obligations.EdgesCommuteAndClocksDoNot := by
  refine ⟨fun s hin => ?_, fun s c hin harmed hrun => ?_⟩
  · have h01 := execAll_pair (exec_edge_of_inited hin .c0) (exec_edge_of_inited (s := s.quiet.edge .c0) hin .c1)
    have h10 := execAll_pair (exec_edge_of_inited hin .c1) (exec_edge_of_inited (s := s.quiet.edge .c1) hin .c0)
    exact ⟨_, h01, h10.trans (congrArg Host.Outcome.next (s.quiet.edge_comm .c1 .c0))⟩
  · refine ⟨_, _, execAll_pair (exec_clk_of_inited hin 3) (exec_edge_of_inited (s := s.quiet.clock 3) hin c),
      execAll_pair (exec_edge_of_inited hin c) (exec_clk_of_inited (s := s.quiet.edge c) hin 3), ?_, ?_⟩
    · have harmed' : (s.chan.get c).counted.armed = true := (Capture.counted_armed _).trans harmed
      rw [State.edge_get_self, State.quiet_chan, State.clock_three_get, State.quiet_chan,
        Capture.edged_ts_of_armed harmed', Capture.counted_cnt_of_run hrun]
    · rw [State.clock_three_get, Capture.counted_ts, State.quiet_chan, State.edge_get_self, State.quiet_chan,
        Capture.edged_ts_of_armed harmed]

end Sys2Proof.Machine

namespace Sys2Proof

/-! ### Encoding: the formats, the opcode map, the decoder and the encoder (spec/30_encoding.md)

#### The operands of a format read back (R81, R82) -/

theorem decodeZ_mkWord (op : BitVec 8) (i : Instr) : decodeZ (mkWord op 0 0) i = .instr i := by
  simp [decodeZ]

theorem decodeC_mkWord (op : BitVec 8) (f : Channel → Instr) (c : Channel) :
    decodeC (mkWord op 0 c.bit) f = .instr (f c) := by
  simp [decodeC]

theorem decodeCAxis_mkWord (op : BitVec 8) (f : Axis → Instr) (a : Axis) :
    decodeCAxis (mkWord op 0 a.bit) f = .instr (f a) := by
  simp [decodeCAxis]

theorem decodeM_mkWord (op : BitVec 8) (f : BitVec 2 → Instr) (m : BitVec 2) :
    decodeM (mkWord op 0 (m.setWidth 16)) f = .instr (f m) := by
  simp [decodeM]

theorem decodeV_mkWord (op : BitVec 8) (f : Word → Instr) (v : Word) : decodeV (mkWord op 0 v) f = .instr (f v) := by
  simp [decodeV]

theorem decodeP_mkWord (op : BitVec 8) (f : Word → Word → Instr) (p q : Word) :
    decodeP (mkWord op p q) f = .instr (f p q) := by
  simp [decodeP]

theorem decodeXV_mkWord (op : BitVec 8) (f : Axis → Word → Instr) (a : Axis) (d : Word) :
    decodeXV (mkWord op a.bit d) f = .instr (f a d) := by
  simp [decodeXV]

/-- Settles O6: the encoder's `op` selects the decoder's arm, and the arm's format reads the operands back. -/
theorem decodeInvertsEncode : Obligations.DecodeInvertsEncode := by
  intro i
  cases i <;> rw [encode, decode, opField_mkWord]
  case init | arm | senselow | release | cadence => exact decodeZ_mkWord _ _
  case disarm c | tstamp c | isrun c | edge c => exact decodeC_mkWord _ _ c
  case flush a | sample a => exact decodeCAxis_mkWord _ _ a
  case clk m | tick m | buttons m => exact decodeM_mkWord _ _ m
  case topos v => exact decodeV_mkWord _ _ v
  case cdelta p q => exact decodeP_mkWord _ _ p q
  case accum a d => exact decodeXV_mkWord _ _ a d

/-! #### A command word from its fields (R80) -/

theorem mkWord_eq_iff {op : BitVec 8} {a b : Word} {w : CmdWord} :
    mkWord op a b = w ↔ opField w = op ∧ aField w = a ∧ bField w = b := by
  constructor
  · rintro rfl
    exact ⟨opField_mkWord op a b, aField_mkWord op a b, bField_mkWord op a b⟩
  · rintro ⟨rfl, rfl, rfl⟩
    exact mkWord_fields w

/-! #### Must-be-zero bits: as fields in the formats, as masks in the opcode map (R81, R83) -/

/-- The field above the lowest `n` bits is zero when each of its bits is. -/
theorem extract_high_eq_zero_iff (v : Word) (n : Nat) :
    v.extractLsb' n (16 - n) = 0 ↔ ∀ i, n ≤ i → v.getLsbD i = false := by
  simp only [BitVec.eq_of_getLsbD_eq_iff, BitVec.getLsbD_extractLsb']
  refine ⟨fun h i hi => ?_, fun h i _ => by simp [h (n + i) (by omega)]⟩
  by_cases hlt : i < 16
  · simpa [show i - n < 16 - n by omega, show n + (i - n) = i by omega] using h (i - n) (by omega)
  · exact BitVec.getLsbD_of_ge v i (by omega)

/-- The mask that spares the lowest `n` bits tests the field above them. -/
theorem and_allOnes_shiftLeft_eq_zero_iff (v : Word) (n : Nat) :
    v &&& (BitVec.allOnes 16 <<< n) = 0 ↔ v.extractLsb' n (16 - n) = 0 := by
  rw [extract_high_eq_zero_iff]
  simp only [BitVec.eq_of_getLsbD_eq_iff, BitVec.getLsbD_and, BitVec.getLsbD_shiftLeft, BitVec.getLsbD_allOnes]
  refine ⟨fun h i hi => ?_, fun h i hlt => ?_⟩
  · by_cases hlt : i < 16
    · simpa [hlt, show ¬ i < n by omega, show i - n < 16 by omega] using h i hlt
    · exact BitVec.getLsbD_of_ge v i (by omega)
  · by_cases hi : i < n
    · simp [hi]
    · simp [h i (by omega)]

theorem and_ffff_eq_zero_iff (v : Word) : v &&& 0xFFFF = 0 ↔ v = 0 := by
  rw [show (0xFFFF : Word) = BitVec.allOnes 16 from rfl, BitVec.and_allOnes]

theorem and_fffe_eq_zero_iff (v : Word) : v &&& 0xFFFE = 0 ↔ v.extractLsb' 1 15 = 0 :=
  and_allOnes_shiftLeft_eq_zero_iff v 1

theorem and_fffc_eq_zero_iff (v : Word) : v &&& 0xFFFC = 0 ↔ v.extractLsb' 2 14 = 0 :=
  and_allOnes_shiftLeft_eq_zero_iff v 2

/-- A field that is zero above its lowest `n` bits is those bits, widened. -/
theorem setWidth_extract_low {v : Word} {n : Nat} (h : v.extractLsb' n (16 - n) = 0) :
    (v.extractLsb' 0 n).setWidth 16 = v := by
  rw [extract_high_eq_zero_iff] at h
  apply BitVec.eq_of_getLsbD_eq
  intro i hlt
  by_cases hi : i < n
  · simp [hlt, hi]
  · simp [hi, h i (by omega)]

/-- With the bits above it zero, the lowest bit is the whole field: read as a channel, and written back, it is the field
(R82). -/
theorem channel_bit_channelOfBit {v : Word} (h : v.extractLsb' 1 15 = 0) : (channelOfBit (v.getLsbD 0)).bit = v := by
  rw [← setWidth_extract_low h]
  generalize v.extractLsb' 0 1 = b
  revert b
  decide

theorem axis_bit_axisOfBit {v : Word} (h : v.extractLsb' 1 15 = 0) : (axisOfBit (v.getLsbD 0)).bit = v := by
  rw [← setWidth_extract_low h]
  generalize v.extractLsb' 0 1 = b
  revert b
  decide

/-- A row that tests the whole `op` is selected by the words of its `op` whose operand fields pass its masks. -/
theorem Row.selects_iff (m : Mnem) (op : BitVec 8) (am bm : Word) (w : CmdWord) :
    (Row.mk m (mkWord op 0 0) (mkWord 0xFF am bm)).selects w = true ↔
      opField w = op ∧ aField w &&& am = 0 ∧ bField w &&& bm = 0 := by
  have hand : w &&& mkWord 0xFF am bm = mkWord (opField w) (aField w &&& am) (bField w &&& bm) := by
    conv_lhs => rw [← mkWord_fields w, mkWord_and]
    rw [show (0xFF : BitVec 8) = BitVec.allOnes 8 from rfl, BitVec.and_allOnes]
  rw [Row.selects, beq_iff_eq, hand, mkWord_eq_iff]
  simp [eq_comm]

/-! #### The decoder follows the opcode map (R83, R84) -/

/-- The answers the opcode map allows for the word `w`: an operation of the row that `w` selects, whose encoding is `w`;
`reservedBits` where the row of its `op` is not selected; `reservedOpcode` where no row has its `op`. -/
inductive MapAnswer (w : CmdWord) : Decoded → Prop
  | instr {r : Row} {i : Instr} (hr : r ∈ opcodeTable) (hop : opField r.value = opField w)
      (hsel : r.selects w = true) (hm : i.mnem = r.mnem) (henc : encode i = w) : MapAnswer w (.instr i)
  | reservedBits {r : Row} (hr : r ∈ opcodeTable) (hop : opField r.value = opField w)
      (hsel : r.selects w = false) : MapAnswer w .reservedBits
  | reservedOpcode (hno : ∀ r ∈ opcodeTable, opField r.value ≠ opField w) : MapAnswer w .reservedOpcode

/-- A format follows the row of its `op` if its condition is the row's masks and, under it, the operation it reads
encodes to the word. -/
theorem mapAnswer_of_format {m : Mnem} {op : BitVec 8} {am bm : Word} {w : CmdWord} {i : Instr} {P : Prop} [Decidable P]
    (hr : Row.mk m (mkWord op 0 0) (mkWord 0xFF am bm) ∈ opcodeTable) (hop : (opField w).toNat = op.toNat)
    (hm : i.mnem = m) (hP : P ↔ aField w &&& am = 0 ∧ bField w &&& bm = 0)
    (henc : P → ∃ a b, encode i = mkWord op a b ∧ aField w = a ∧ bField w = b) :
    MapAnswer w (if P then .instr i else .reservedBits) := by
  have hop' : opField w = op := BitVec.eq_of_toNat_eq hop
  have hrow : opField (mkWord op 0 0) = opField w := by rw [opField_mkWord, hop']
  have hsel : (Row.mk m (mkWord op 0 0) (mkWord 0xFF am bm)).selects w = true ↔ P := by
    rw [Row.selects_iff, hP]
    exact and_iff_right hop'
  by_cases h : P
  · obtain ⟨a, b, hi, ha, hb⟩ := henc h
    rw [if_pos h]
    exact .instr hr hrow (hsel.2 h) hm (hi.trans (mkWord_eq_iff.2 ⟨hop', ha, hb⟩))
  · rw [if_neg h]
    exact .reservedBits hr hrow (Bool.eq_false_iff.2 (mt hsel.1 h))

section

open Laws.RowOfEncoding (word_and_zero)

variable {m : Mnem} {op : BitVec 8} {w : CmdWord}

theorem decodeZ_mapAnswer {i : Instr} (hr : Row.mk m (mkWord op 0 0) (mkWord 0xFF 0xFFFF 0xFFFF) ∈ opcodeTable)
    (hop : (opField w).toNat = op.toNat) (hm : i.mnem = m) (henc : encode i = mkWord op 0 0) :
    MapAnswer w (decodeZ w i) :=
  mapAnswer_of_format hr hop hm (by rw [and_ffff_eq_zero_iff, and_ffff_eq_zero_iff]) fun ⟨ha, hb⟩ =>
    ⟨_, _, henc, ha, hb⟩

theorem decodeC_mapAnswer {f : Channel → Instr}
    (hr : Row.mk m (mkWord op 0 0) (mkWord 0xFF 0xFFFF 0xFFFE) ∈ opcodeTable) (hop : (opField w).toNat = op.toNat)
    (hm : ∀ c, (f c).mnem = m) (henc : ∀ c, encode (f c) = mkWord op 0 c.bit) : MapAnswer w (decodeC w f) :=
  mapAnswer_of_format hr hop (hm _) (by rw [and_ffff_eq_zero_iff, and_fffe_eq_zero_iff]) fun ⟨ha, hb⟩ =>
    ⟨_, _, henc _, ha, (channel_bit_channelOfBit hb).symm⟩

theorem decodeCAxis_mapAnswer {f : Axis → Instr}
    (hr : Row.mk m (mkWord op 0 0) (mkWord 0xFF 0xFFFF 0xFFFE) ∈ opcodeTable) (hop : (opField w).toNat = op.toNat)
    (hm : ∀ a, (f a).mnem = m) (henc : ∀ a, encode (f a) = mkWord op 0 a.bit) : MapAnswer w (decodeCAxis w f) :=
  mapAnswer_of_format hr hop (hm _) (by rw [and_ffff_eq_zero_iff, and_fffe_eq_zero_iff]) fun ⟨ha, hb⟩ =>
    ⟨_, _, henc _, ha, (axis_bit_axisOfBit hb).symm⟩

theorem decodeM_mapAnswer {f : BitVec 2 → Instr}
    (hr : Row.mk m (mkWord op 0 0) (mkWord 0xFF 0xFFFF 0xFFFC) ∈ opcodeTable) (hop : (opField w).toNat = op.toNat)
    (hm : ∀ b, (f b).mnem = m) (henc : ∀ b, encode (f b) = mkWord op 0 (b.setWidth 16)) :
    MapAnswer w (decodeM w f) :=
  mapAnswer_of_format hr hop (hm _) (by rw [and_ffff_eq_zero_iff, and_fffc_eq_zero_iff]) fun ⟨ha, hb⟩ =>
    ⟨_, _, henc _, ha, (setWidth_extract_low hb).symm⟩

theorem decodeV_mapAnswer {f : Word → Instr}
    (hr : Row.mk m (mkWord op 0 0) (mkWord 0xFF 0xFFFF 0) ∈ opcodeTable) (hop : (opField w).toNat = op.toNat)
    (hm : ∀ v, (f v).mnem = m) (henc : ∀ v, encode (f v) = mkWord op 0 v) : MapAnswer w (decodeV w f) :=
  mapAnswer_of_format hr hop (hm _) (by simp only [and_ffff_eq_zero_iff, word_and_zero, and_true]) fun ha =>
    ⟨_, _, henc _, ha, rfl⟩

theorem decodeP_mapAnswer {f : Word → Word → Instr}
    (hr : Row.mk m (mkWord op 0 0) (mkWord 0xFF 0 0) ∈ opcodeTable) (hop : (opField w).toNat = op.toNat)
    (hm : ∀ p q, (f p q).mnem = m) (henc : ∀ p q, encode (f p q) = mkWord op p q) : MapAnswer w (decodeP w f) :=
  mapAnswer_of_format (P := True) hr hop (hm _ _) (by simp only [word_and_zero, and_true]) fun _ =>
    ⟨_, _, henc _ _, rfl, rfl⟩

theorem decodeXV_mapAnswer {f : Axis → Word → Instr}
    (hr : Row.mk m (mkWord op 0 0) (mkWord 0xFF 0xFFFE 0) ∈ opcodeTable) (hop : (opField w).toNat = op.toNat)
    (hm : ∀ a d, (f a d).mnem = m) (henc : ∀ a d, encode (f a d) = mkWord op a.bit d) :
    MapAnswer w (decodeXV w f) :=
  mapAnswer_of_format hr hop (hm _ _) (by simp only [and_fffe_eq_zero_iff, word_and_zero, and_true]) fun ha =>
    ⟨_, _, henc _ _, (axis_bit_axisOfBit ha).symm, rfl⟩

end

theorem opcodes_of_table : ∀ r ∈ opcodeTable, (opField r.value).toNat ∈
    [0x01, 0x02, 0x03, 0x04, 0x05, 0x08, 0x09, 0x10, 0x11, 0x12, 0x13, 0x14, 0x20, 0x21, 0x22, 0x23, 0x24] := by
  decide

/-- The arms of the decoder are the rows of the opcode map, each in its row's format (R83). -/
theorem decode_mapAnswer (w : CmdWord) : MapAnswer w (decode w) := by
  unfold decode
  split
  next hop => exact decodeZ_mapAnswer (op := 0x01) (by decide) hop rfl rfl
  next hop => exact decodeZ_mapAnswer (op := 0x02) (by decide) hop rfl rfl
  next hop => exact decodeC_mapAnswer (op := 0x03) (by decide) hop (fun _ => rfl) fun _ => rfl
  next hop => exact decodeC_mapAnswer (op := 0x04) (by decide) hop (fun _ => rfl) fun _ => rfl
  next hop => exact decodeC_mapAnswer (op := 0x05) (by decide) hop (fun _ => rfl) fun _ => rfl
  next hop => exact decodeM_mapAnswer (op := 0x08) (by decide) hop (fun _ => rfl) fun _ => rfl
  next hop => exact decodeC_mapAnswer (op := 0x09) (by decide) hop (fun _ => rfl) fun _ => rfl
  next hop => exact decodeV_mapAnswer (op := 0x10) (by decide) hop (fun _ => rfl) fun _ => rfl
  next hop => exact decodeP_mapAnswer (op := 0x11) (by decide) hop (fun _ _ => rfl) fun _ _ => rfl
  next hop => exact decodeXV_mapAnswer (op := 0x12) (by decide) hop (fun _ _ => rfl) fun _ _ => rfl
  next hop => exact decodeCAxis_mapAnswer (op := 0x13) (by decide) hop (fun _ => rfl) fun _ => rfl
  next hop => exact decodeCAxis_mapAnswer (op := 0x14) (by decide) hop (fun _ => rfl) fun _ => rfl
  next hop => exact decodeM_mapAnswer (op := 0x20) (by decide) hop (fun _ => rfl) fun _ => rfl
  next hop => exact decodeZ_mapAnswer (op := 0x21) (by decide) hop rfl rfl
  next hop => exact decodeZ_mapAnswer (op := 0x22) (by decide) hop rfl rfl
  next hop => exact decodeM_mapAnswer (op := 0x23) (by decide) hop (fun _ => rfl) fun _ => rfl
  next hop => exact decodeZ_mapAnswer (op := 0x24) (by decide) hop rfl rfl
  next =>
    refine .reservedOpcode fun r hr hop => ?_
    have hmem := opcodes_of_table r hr
    rw [hop] at hmem
    simp_all

/-- Settles O7: whichever arm answers an operation, its format has checked or read every bit of the word. -/
theorem encodeInvertsDecode : Obligations.EncodeInvertsDecode := by
  intro w i h
  have hw := decode_mapAnswer w
  rw [h] at hw
  cases hw with
  | instr _ _ _ _ henc => exact henc

/-! #### The rows of the opcode map (R83, R84) -/

theorem opField_mask_of_table : ∀ r ∈ opcodeTable, opField r.mask = BitVec.allOnes 8 := by decide

/-- Every row tests the whole `op`, so it is selected by words of its own `op` alone. -/
theorem opField_of_selects {r : Row} {w : CmdWord} (hr : r ∈ opcodeTable) (h : r.selects w = true) :
    opField r.value = opField w := by
  have hand : opField (w &&& r.mask) = opField w &&& opField r.mask := BitVec.extractLsb'_and
  rw [← beq_iff_eq.1 h, hand, opField_mask_of_table r hr, BitVec.and_allOnes]

/-- Every row of the map has an `op` of its own. -/
theorem row_eq_of_opField_eq :
    ∀ r ∈ opcodeTable, ∀ r' ∈ opcodeTable, opField r.value = opField r'.value → r = r' := by
  decide

/-- Settles O5: a word selects the row of its own `op` alone, and no two rows have one `op`. -/
theorem opcodeRowsAreDisjoint : Obligations.OpcodeRowsAreDisjoint := by
  intro w r hr r' hr' h h'
  exact row_eq_of_opField_eq r hr r' hr' ((opField_of_selects hr h).trans (opField_of_selects hr' h').symm)

/-- A word of a row's `op` decodes to an operation of the row's mnemonic, if it selects the row, or is refused for its
must-be-zero bits, if it does not. -/
theorem decode_of_row {r : Row} {w : CmdWord} (hr : r ∈ opcodeTable) (hop : opField r.value = opField w) :
    (r.selects w = true ∧ ∃ i, decode w = .instr i ∧ i.mnem = r.mnem) ∨
      (r.selects w = false ∧ decode w = .reservedBits) := by
  have hw := decode_mapAnswer w
  generalize decode w = d at hw ⊢
  cases hw with
  | instr hr' hop' hsel hm =>
    obtain rfl := row_eq_of_opField_eq r hr _ hr' (hop.trans hop'.symm)
    exact .inl ⟨hsel, _, rfl, hm⟩
  | reservedBits hr' hop' hsel =>
    obtain rfl := row_eq_of_opField_eq r hr _ hr' (hop.trans hop'.symm)
    exact .inr ⟨hsel, rfl⟩
  | reservedOpcode hno => exact absurd hop (hno r hr)

/-- Settles O4: an operation answered is one of the row the word selects, and a word that selects a row is answered by
an operation of it. -/
theorem decodedExactlyWhenItsRowIsSelected : Obligations.DecodedExactlyWhenItsRowIsSelected := by
  intro w m
  constructor
  · rintro ⟨i, h, rfl⟩
    have hw := decode_mapAnswer w
    rw [h] at hw
    cases hw with
    | instr hr _ hsel hm => exact ⟨_, hr, hm.symm, hsel⟩
  · rintro ⟨r, hr, rfl, hsel⟩
    obtain ⟨-, hi⟩ | ⟨hsel', -⟩ := decode_of_row hr (opField_of_selects hr hsel)
    · exact hi
    · simp [hsel] at hsel'

theorem decode_of_no_row {w : CmdWord} (hno : ∀ r ∈ opcodeTable, opField r.value ≠ opField w) :
    decode w = .reservedOpcode := by
  have hw := decode_mapAnswer w
  generalize decode w = d at hw
  cases hw with
  | instr hr hop | reservedBits hr hop => exact absurd hop (hno _ hr)
  | reservedOpcode => rfl

/-! #### A pair of cells after a write of what it holds -/

@[simp] theorem PerChannel.set_get_self {α : Type} (p : PerChannel α) (c : Channel) : p.set c (p.get c) = p := by
  cases c <;> rfl

end Sys2Proof

namespace Sys2Proof.Machine

/-- Settles O3: the decoder reserves a word of no row's `op`, and one that does not select the row of its `op`; the step
refuses it for the decoder's reason. -/
theorem reservedWordsAreRefusedByName : Obligations.ReservedWordsAreRefusedByName := by
  intro s w rest hcmd
  refine ⟨fun hno => ?_, fun r hr hop hsel => ?_⟩
  · simp only [step, State.takeCommand_cons hcmd, decode_of_no_row hno]
  · obtain ⟨hsel', -⟩ | ⟨-, hbits⟩ := decode_of_row hr hop
    · simp [hsel] at hsel'
    · simp only [step, State.takeCommand_cons hcmd, hbits]

/-! #### Written operations (R87) -/

/-- Each operand, written out as a number or a letter, is read back as the operand (R82, R87). -/
theorem expandCheckedSrc_src (i : Instr) : expandCheckedSrc i.src = some [i] := by
  cases i with
  | init | arm | senselow | release | cadence | flush | sample => rfl
  | disarm c | tstamp c | isrun c | edge c => cases c <;> rfl
  | clk m | tick m | buttons m | topos m =>
    have hread : BitVec.ofInt _ (m.toNat : Int) = m := by
      rw [BitVec.ofInt_natCast, BitVec.ofNat_toNat, BitVec.setWidth_eq]
    simp only [expandCheckedSrc, expandCheckedSrc.oneNum, Instr.src, Instr.mnem, hread, reduceCtorEq, if_false]
  | cdelta p q => simp [expandCheckedSrc, Instr.src, Instr.mnem]
  | accum a d => simp [expandCheckedSrc, Instr.src, Instr.mnem, axisOfArg]

/-- Settles O9: a written operation passes the check, and its operands read back as themselves. -/
theorem writtenOperationAssemblesToItself : Obligations.WrittenOperationAssemblesToItself := fun i =>
  ⟨i.wf_always, (if_pos i.wf_always).trans (expandCheckedSrc_src i)⟩

theorem decode_of_encode_eq {i : Instr} {w : CmdWord} (h : encode i = w) : decode w = .instr i :=
  h ▸ decodeInvertsEncode i

/-- Settles O10: six of the words are encodings, no row has the `op` of the seventh, and the eighth has a forbidden bit
set. -/
theorem wordsFromTheEncodingTables : Obligations.WordsFromTheEncodingTables := by
  refine ⟨?_, ?_, ?_, ?_, ?_, ?_, decode_of_no_row (by decide), ?_⟩
  case refine_7 => decide
  all_goals exact decode_of_encode_eq (by decide)

/-! #### A discharge entry as its sub-actions (R88, R141, R142) -/

/-- After `INIT` every operation but `INIT` is performed (R185, R186). -/
theorem exec_of_inited {i : Instr} {s : State} (hne : i ≠ .init) (hin : s.inited = true) :
    exec i s = .next (performed i s) := by
  cases hguard : needsInit i with
  | true => rw [exec_eq_onceInited_performed hguard, State.onceInited_of_inited hin]
  | false => exact exec_eq_performed_of_unguarded hne hguard s

/-- The state a list of operations leaves behind where each of them is performed. -/
def performedAll (is : List Instr) (s : State) : State := is.foldl (fun t i => performed i t) s

theorem execAll_of_inited {is : List Instr} {s : State} (hne : .init ∉ is) (hin : s.inited = true) :
    execAll is s = .next (performedAll is s) := by
  induction is generalizing s with
  | nil => rfl
  | cons i is ih =>
    obtain ⟨hi, his⟩ := not_or.1 (mt List.mem_cons.2 hne)
    rw [execAll_cons_of_next (exec_of_inited (Ne.symm hi) hin)]
    exact ih his ((performed_inited (Ne.symm hi) s).trans hin)

theorem init_not_mem_dischargeActions (q0 q1 : Bool) (b : BitVec 2) : .init ∉ dischargeActions q0 q1 b := by
  cases q0 <;> cases q1 <;> simp [dischargeActions]

theorem performedAll_append (is js : List Instr) (s : State) :
    performedAll (is ++ js) s = performedAll js (performedAll is s) :=
  List.foldl_append

/-! Clearing the ports, which every operation begins with, writes no cell that a part of the discharge entry reads. -/

@[simp] theorem State.quiet_quiet (s : State) : s.quiet.quiet = s.quiet := rfl

@[simp] theorem State.quiet_answer (s : State) (v : Word) : (s.answer v).quiet = s.quiet := rfl

@[simp] theorem State.quiet_disarm (s : State) (c : Channel) : (s.disarm c).quiet = s.quiet.disarm c := rfl

@[simp] theorem State.quiet_senseLow (s : State) : s.senseLow.quiet = s.quiet.senseLow := rfl

@[simp] theorem State.quiet_armBoth (s : State) : s.armBoth.quiet = s.quiet.armBoth := rfl

@[simp] theorem State.quiet_sampleButtons (s : State) (b : BitVec 2) :
    (s.sampleButtons b).quiet = s.quiet.sampleButtons b := rfl

@[simp] theorem State.quiet_sampleUnless (s : State) (missed : Bool) (a : Axis) :
    (s.sampleUnless missed a).quiet = s.quiet.sampleUnless missed a := by
  cases missed with
  | true => rfl
  | false => simp only [State.sampleUnless_valid, State.sample_eq]; rfl

/-- The query, disarm, drive low and re-arm of a discharge entry are the first six sub-actions. -/
theorem performedAll_queries_to_arm (s : State) :
    performedAll [.isrun .c0, .isrun .c1, .disarm .c0, .disarm .c1, .senselow, .arm] s =
      ((s.quiet.disarm .c0).disarm .c1).senseLow.armBoth := by
  simp [performedAll, performed]

/-- Up to the ports, the update of an axis is the operation `SAMPLE`, or none if its edge was missed (R148). -/
theorem quiet_performedAll_sample (s : State) (missed : Bool) (a : Axis) :
    (performedAll (if missed then [] else [.sample a]) s).quiet = s.quiet.sampleUnless missed a := by
  cases missed with
  | true => rfl
  | false => exact s.quiet.quiet_sampleUnless false a

/-- The sub-actions, each with quiet ports, leave what the one discharge entry leaves (R142). -/
theorem performedAll_dischargeActions (s : State) (b : BitVec 2) :
    performedAll (dischargeActions s.chan.c0.run s.chan.c1.run b) s = s.quiet.dischargeEntry b := by
  have hlast : ∀ t, performedAll [.buttons b, .cadence] t = (t.quiet.sampleButtons b).cadence := by
    simp [performedAll, performed]
  rw [dischargeActions, performedAll_append, performedAll_append, performedAll_append, performedAll_queries_to_arm,
    hlast, quiet_performedAll_sample, quiet_performedAll_sample]
  simp only [State.quiet_armBoth, State.quiet_senseLow, State.quiet_disarm, State.quiet_quiet]
  rfl

/-- Settles O38: the sub-actions are all performed, and leave the state that `TICK` sets `mode` in. -/
theorem tickInDischargeIsItsSubActions : Obligations.TickInDischargeIsItsSubActions := by
  intro b s hin hmode
  have hall := execAll_of_inited (init_not_mem_dischargeActions s.chan.c0.run s.chan.c1.run b) hin
  rw [performedAll_dischargeActions] at hall
  have htick : exec (.tick b) s = .next (s.quiet.tick b) := exec_of_inited nofun hin
  rw [State.tick_discharge (s := s.quiet) hmode] at htick
  exact ⟨_, hall, htick⟩

/-! #### Legal words that change nothing (R85) -/

theorem State.onChannel_of_fixed {s : State} {c : Channel} {f : Capture → Capture}
    (h : f (s.chan.get c) = s.chan.get c) : s.onChannel c f = s := by
  rw [State.onChannel, h, PerChannel.set_get_self]

theorem Capture.counted_of_not_run {k : Capture} (h : k.run = false) : k.counted = k := by
  rw [Capture.counted, h]
  rfl

theorem Capture.disarmed_of_stopped {k : Capture} (hrun : k.run = false) (harmed : k.armed = false) :
    k.disarmed = k := by
  cases k
  simp_all [Capture.disarmed]

theorem Capture.edged_of_pending {k : Capture} (harmed : k.armed = false) (hpend : k.pend = true) : k.edged = k := by
  cases k
  simp_all [Capture.edged]

theorem State.clock_of_none_running {s : State} {m : BitVec 2}
    (h : ∀ c, maskSelects m c = true → (s.chan.get c).run = false) : s.clock m = s := by
  have h0 : (if maskSelects m .c0 then s.chan.c0.counted else s.chan.c0) = s.chan.c0 :=
    ite_eq_right_iff.2 fun hsel => Capture.counted_of_not_run (h .c0 hsel)
  have h1 : (if maskSelects m .c1 then s.chan.c1.counted else s.chan.c1) = s.chan.c1 :=
    ite_eq_right_iff.2 fun hsel => Capture.counted_of_not_run (h .c1 hsel)
  rw [State.clock, h0, h1]

theorem SenseLine.drive_eq_released_iff (l : SenseLine) :
    l.drive = .released ↔ l.dir = .input ∧ l.pullup = false := by
  cases hd : l.dir <;> cases hp : l.pullup <;> simp [SenseLine.drive, hd, hp]

theorem SenseLine.setDirectionIn_of_released {l : SenseLine} (h : l.drive = .released) :
    l.setDirectionIn false = l := by
  obtain ⟨hdir, hpull⟩ := l.drive_eq_released_iff.1 h
  simp [SenseLine.setDirectionIn, ← hdir, ← hpull]

theorem State.release_of_released {s : State} (h : s.linesReleased) : s.release = s := by
  obtain ⟨h0, h1⟩ := h
  rw [State.release, State.onLines, SenseLine.setDirectionIn_of_released h0, SenseLine.setDirectionIn_of_released h1]

/-- Settles O47: each word writes the cells it finds, and a second `ARM` finds the fresh window of the first. -/
theorem legalWordsThatChangeNothing : Obligations.LegalWordsThatChangeNothing := by
  refine ⟨fun i s hin hi => ?_, fun s t h => ?_⟩
  · change exec i s = .next s.quiet
    obtain rfl | ⟨m, rfl, hm⟩ | ⟨c, rfl, hrun, harmed⟩ | ⟨c, rfl, harmed, hpend⟩ | ⟨rfl, hlines⟩ := hi
    · have hnone : ∀ c, maskSelects 0 c = true → (s.chan.get c).run = false := fun c hsel => by
        cases c <;> cases hsel
      rw [exec_clk_of_inited hin, State.clock_of_none_running (s := s.quiet) hnone]
    · rw [exec_clk_of_inited hin, State.clock_of_none_running (s := s.quiet) hm]
    · have hkeep : s.quiet.disarm c = s.quiet := State.onChannel_of_fixed (Capture.disarmed_of_stopped hrun harmed)
      exact (State.onceInited_of_inited hin _).trans (congrArg _ hkeep)
    · have hkeep : s.quiet.edge c = s.quiet := State.onChannel_of_fixed (Capture.edged_of_pending harmed hpend)
      rw [exec_edge_of_inited hin, hkeep]
    · have hkeep : s.quiet.release = s.quiet := State.release_of_released hlines
      exact congrArg _ hkeep
  · obtain ⟨hin, rfl⟩ := exec_arm_next h
    exact State.onceInited_of_inited (s := s.quiet.armBoth) hin _

end Sys2Proof.Machine

namespace Sys2Proof.Machine

/-! ### Capture timer: the window of one channel, the contract and the seven operations (spec/40_capture_timer.md)

#### A channel that still runs (R108) -/

/-- Channel `c` is initialised and its `armed` and `run` agree (R27). -/
def State.FlagsAgree (c : Channel) (s : State) : Prop :=
  s.inited = true ∧ (s.chan.get c).armed = (s.chan.get c).run

theorem exec_keeps_flagsAgree {c : Channel} {i : Instr} {s t : State} (hs : s.FlagsAgree c) (h : exec i s = .next t) :
    t.FlagsAgree c := by
  obtain ⟨hin, heq⟩ := hs
  have hin' := exec_keeps_inited hin h
  obtain rfl := exec_next_performed h
  exact ⟨hin', (performed_channelMove hin i c).armed_eq_run heq⟩

@[simp] theorem Capture.edged_armed (k : Capture) : k.edged.armed = false := by
  obtain ⟨-, e⟩ | ⟨hd, e⟩ := k.edged_cases <;> rw [e] <;> [rfl; exact hd]

/-- An edge leaves its channel disarmed, serviced or not (R106). -/
theorem exec_edge_disarms {c : Channel} {s t : State} (hin : s.inited = true) (h : exec (.edge c) s = .next t) :
    (t.chan.get c).armed = false := by
  rw [exec_next_performed h, performed_edge_of_inited hin, State.edge_get_self, Capture.edged_armed]

/-- A channel disarmed at the start of a run without an arming is stopped at its end. -/
theorem execAll_not_run_of_disarmed {is : List Instr} {s t : State} {c : Channel} (hs : s.FlagsAgree c)
    (hd : (s.chan.get c).armed = false) (hnever : neverArms is s) (h : execAll is s = .next t) :
    (t.chan.get c).run = false := by
  obtain ⟨-, hagree⟩ : t.FlagsAgree c := execAll_keeps_of_neverArms (fun hu _ => exec_keeps_flagsAgree hu) hs hnever h
  obtain ⟨-, hdisarmed⟩ := disarmedChannelKeepsItsTimestamp is s t c hs.1 hd hnever h
  exact hagree.symm.trans hdisarmed

theorem edge_not_mem_of_still_running {is : List Instr} {s t : State} {c : Channel} (hs : s.FlagsAgree c)
    (hnever : neverArms is s) (h : execAll is s = .next t) (hrun : (t.chan.get c).run = true) : .edge c ∉ is := by
  induction is generalizing s with
  | nil => exact List.not_mem_nil
  | cons i is ih =>
    obtain ⟨-, hrest⟩ := hnever
    obtain ⟨u, hu, ht⟩ := execAll_cons_next h
    have hagree := exec_keeps_flagsAgree hs hu
    have hi : .edge c ≠ i := by
      rintro rfl
      have hstopped := execAll_not_run_of_disarmed hagree (exec_edge_disarms hs.1 hu) (hrest u hu) ht
      rw [hrun] at hstopped
      cases hstopped
    exact mt List.mem_cons.1 (not_or.2 ⟨hi, ih hagree (hrest u hu) ht⟩)

/-- Settles O49: the first edge would leave the channel disarmed, and so stopped for the rest of the run; after `DISARM c`
the query reads the flag that the operation has just cleared. -/
theorem stillRunningMeansNoEdgeCame : Obligations.StillRunningMeansNoEdgeCame := by
  refine ⟨fun is s t c hin heq => edge_not_mem_of_still_running ⟨hin, heq⟩, fun s c hin => ?_⟩
  have hdisarm : exec (.disarm c) s = .next (s.quiet.disarm c) := exec_of_inited nofun hin
  have hquery : exec (.isrun c) (s.quiet.disarm c) = .next _ := exec_of_inited nofun hin
  refine ⟨_, execAll_pair hdisarm hquery, ?_⟩
  cases c <;> rfl

/-! #### The count of one window (R109) -/

/-- In a window that found `v` in the latch and has selected the channel with `n` clocks: nothing is latched yet and the
count is at most `n`, or the channel is disarmed with such a count in the latch. -/
def Capture.InWindow (v : Word) (n : Nat) (k : Capture) : Prop :=
  (k.ts = v ∧ ∃ m ≤ n, k.cnt = BitVec.ofNat 16 m) ∨ (k.armed = false ∧ ∃ m ≤ n, k.ts = BitVec.ofNat 16 m)

section
variable {v : Word} {n : Nat} {k : Capture}

theorem Capture.rearmed_inWindow (k : Capture) : k.rearmed.InWindow k.ts 0 := .inl ⟨rfl, 0, le_rfl, rfl⟩

theorem Capture.InWindow.mono {n' : Nat} (h : k.InWindow v n) (hn : n ≤ n') : k.InWindow v n' := by
  obtain ⟨hts, m, hm, hcnt⟩ | ⟨hd, m, hm, hts⟩ := h
  · exact .inl ⟨hts, m, hm.trans hn, hcnt⟩
  · exact .inr ⟨hd, m, hm.trans hn, hts⟩

theorem Capture.InWindow.stopped (h : k.InWindow v n) : k.stopped.InWindow v n := by
  obtain ⟨hts, -⟩ | ⟨-, hlatched⟩ := h
  · exact .inl ⟨hts, 0, n.zero_le, rfl⟩
  · exact .inr ⟨rfl, hlatched⟩

theorem Capture.InWindow.disarmed (h : k.InWindow v n) : k.disarmed.InWindow v n := by
  obtain hopen | ⟨-, hlatched⟩ := h
  · exact .inl hopen
  · exact .inr ⟨rfl, hlatched⟩

/-- A serviced edge turns the count of the window into its timestamp (R106). -/
theorem Capture.InWindow.edged (h : k.InWindow v n) : k.edged.InWindow v n := by
  obtain ⟨harmed, e⟩ | ⟨-, e⟩ := k.edged_cases <;> rw [e]
  · obtain ⟨-, hcount⟩ | ⟨hd, -⟩ := h
    · exact .inr ⟨rfl, hcount⟩
    · rw [harmed] at hd
      cases hd
  · exact h

/-- A clock moves the count by at most one (R105). -/
theorem Capture.InWindow.counted (h : k.InWindow v n) : k.counted.InWindow v (n + 1) := by
  obtain ⟨hts, m, hm, hcnt⟩ | hlatched := h
  · cases hrun : k.run with
    | false =>
      rw [Capture.counted_of_not_run hrun]
      exact .inl ⟨hts, m, hm.trans n.le_succ, hcnt⟩
    | true =>
      refine .inl ⟨k.counted_ts.trans hts, m + 1, Nat.succ_le_succ hm, ?_⟩
      rw [Capture.counted_cnt_of_run hrun, hcnt]
      exact (BitVec.ofNat_add m 1).symm
  · rw [← k.counted_ts, ← k.counted_armed] at hlatched
    exact Capture.InWindow.mono (.inr hlatched) n.le_succ

end

theorem clocksFor_cons (c : Channel) (i : Instr) (is : List Instr) :
    clocksFor c (i :: is) = clocksFor c [i] + clocksFor c is := by
  simp only [clocksFor, Nat.add_zero]

theorem clocksFor_clk (c : Channel) (m : BitVec 2) : clocksFor c [.clk m] = if maskSelects m c then 1 else 0 := rfl

/-- A tick that opens no window leaves the channels alone (R141, R144). -/
theorem performed_tick_chan_of_not_arms {b : BitVec 2} {s : State} (h : ¬ arms (.tick b) s) :
    (performed (.tick b) s).chan = s.chan := by
  cases hm : s.mode with
  | discharge => exact absurd (.inr ⟨⟨b, rfl⟩, hm⟩) h
  | read => exact State.tick_chan_of_read (s := s.quiet) hm b

theorem performed_clk_inWindow {c : Channel} {v : Word} {n : Nat} {m : BitVec 2} {s : State} (hin : s.inited = true)
    (hk : (s.chan.get c).InWindow v n) :
    ((performed (.clk m) s).chan.get c).InWindow v (n + clocksFor c [.clk m]) := by
  rw [performed_clk_of_inited hin, State.clock_get, clocksFor_clk]
  split
  · exact hk.counted
  · exact hk

/-- An operation that opens no window adds to the bound the clock it is, if it is one. -/
theorem performed_inWindow {c : Channel} {v : Word} {n : Nat} {i : Instr} {s : State} (hin : s.inited = true)
    (hi : ¬ arms i s) (hk : (s.chan.get c).InWindow v n) :
    ((performed i s).chan.get c).InWindow v (n + clocksFor c [i]) := by
  have hmove := performed_channelMove hin i c
  generalize hk' : (performed i s).chan.get c = k' at hmove ⊢
  cases hmove with
  | keeps => exact hk.mono (Nat.le_add_right _ _)
  | stops => exact hk.stopped
  | arms => exact absurd (.inl rfl) hi
  | ticks b =>
    rw [← hk', performed_tick_chan_of_not_arms hi]
    exact hk
  | disarms => exact hk.disarmed
  | counts m => exact hk' ▸ performed_clk_inWindow hin hk
  | edges => exact hk.edged

theorem execAll_inWindow {c : Channel} {v : Word} {n : Nat} {is : List Instr} {s t : State} (hin : s.inited = true)
    (hk : (s.chan.get c).InWindow v n) (hnever : neverArms is s) (h : execAll is s = .next t) :
    (t.chan.get c).InWindow v (n + clocksFor c is) := by
  induction is generalizing s n with
  | nil => exact Host.Outcome.next.inj h ▸ hk
  | cons i is ih =>
    obtain ⟨hi, hrest⟩ := hnever
    obtain ⟨u, hu, ht⟩ := execAll_cons_next h
    have hku : (u.chan.get c).InWindow v (n + clocksFor c [i]) := by
      rw [exec_next_performed hu]
      exact performed_inWindow hin hi hk
    rw [clocksFor_cons, ← Nat.add_assoc]
    exact ih (exec_keeps_inited hin hu) hku (hrest u hu) ht

/-- `ARM` opens the window with no clock counted and the latch untouched (R101). -/
theorem State.armBoth_inWindow (s : State) (c : Channel) : (s.armBoth.chan.get c).InWindow (s.chan.get c).ts 0 := by
  cases c <;> exact Capture.rearmed_inWindow _

/-- Settles O50: `ARM` leaves the channel in a window of no clocks, and the run keeps it in a window of the clocks that
selected it. -/
theorem capturedCountIsBoundedByTheClocks : Obligations.CapturedCountIsBoundedByTheClocks := by
  intro is s u t c harm hnever h
  obtain ⟨hin, rfl⟩ := exec_arm_next harm
  have hend := execAll_inWindow (s := s.quiet.armBoth) hin (s.quiet.armBoth_inWindow c) hnever h
  rw [Nat.zero_add] at hend
  obtain ⟨hts, -⟩ | ⟨hd, m, hm, hts⟩ := hend
  · exact .inl hts
  · exact .inr ⟨m, hm, hts, hd⟩

/-! #### The contract and the seven operations (R100 to R107) -/

/-- Settles O19: each refusal is the guard that `exec` checks before it performs the operation. -/
theorem brokenDutiesAreRefusedByName : Obligations.BrokenDutiesAreRefusedByName := by
  refine ⟨fun s harm => ?_, fun i s hguard hin => ?_⟩
  · rw [exec_init_eq_performed, if_pos harm]
  · rw [exec_eq_onceInited_performed hguard, State.onceInited_of_not hin]

/-- Settles O20: the guard of `INIT` lets it through, and both channels take the stopped configuration. -/
theorem initStopsBothChannels : Obligations.InitStopsBothChannels := by
  intro s harm
  exact (exec_init_eq_performed s).trans (if_neg (ne_true_of_eq_false harm))

/-- Settles O21: both channels take the fresh window of `Capture.rearmed`. -/
theorem armOpensAFreshWindow : Obligations.ArmOpensAFreshWindow := fun _ hin => exec_of_inited nofun hin

/-- Settles O22: the channel takes the cells of `Capture.disarmed`, on quiet ports. -/
theorem disarmStopsOneChannel : Obligations.DisarmStopsOneChannel := fun _ _ hin => exec_of_inited nofun hin

/-- Settles O23: the answer is the latch, on quiet ports. -/
theorem tstampReturnsTheLatch : Obligations.TstampReturnsTheLatch := fun _ _ hin => exec_of_inited nofun hin

/-- Settles O24: the answer is `resOfBool` of the channel's `run`, on quiet ports. -/
theorem isrunReturnsWhetherCounting : Obligations.IsrunReturnsWhetherCounting := fun _ _ hin =>
  exec_of_inited nofun hin

/-- A clock at one channel: a selected running counter counts up, every other keeps its cells (R105). -/
theorem Capture.counted_if_selected (sel : Bool) (k : Capture) :
    (if sel then k.counted else k) = if sel = true ∧ k.run = true then { k with cnt := k.cnt + 1 } else k := by
  cases sel with
  | false => simp
  | true =>
    cases hrun : k.run with
    | false => simp [Capture.counted_of_not_run hrun]
    | true => simp [Capture.counted_eq, hrun]

/-- Settles O25, channel by channel. -/
theorem clkCountsSelectedRunningCounters : Obligations.ClkCountsSelectedRunningCounters := by
  intro m s hin
  rw [exec_clk_of_inited hin, State.clock, Capture.counted_if_selected, Capture.counted_if_selected]
  rfl

/-- Settles O26: the two cases of `State.edge`. -/
theorem edgeLatchesOrPends : Obligations.EdgeLatchesOrPends := by
  intro c s hin
  rw [exec_edge_of_inited hin]
  cases harmed : (s.chan.get c).armed with
  | true => exact congrArg _ (State.edge_armed (s := s.quiet) harmed)
  | false => exact congrArg _ (State.edge_disarmed (s := s.quiet) harmed)

end Sys2Proof.Machine

namespace Sys2Proof.Machine

/-! ### Decoder: samples, circular differences, accumulators, velocities (spec/41_decoder.md)

#### The circular difference: the representative of `q - p` modulo 2048 in `-1024 .. 1023` (R121, R129) -/

theorem cdelta_emod (p q : Word) : cdelta p q % 2048 = ((q.toNat : Int) - p.toNat) % 2048 := by
  obtain ⟨-, h⟩ | ⟨-, h⟩ := cdelta_cases p q <;> omega

/-- The circular difference is the sign extension of the low 11 bits of `q - p`. -/
theorem cdelta_eq_toInt_low (p q : Word) : cdelta p q = ((q - p).setWidth 11).toInt := by
  rw [BitVec.toInt_setWidth, BitVec.toNat_sub, Int.bmod_def]
  obtain ⟨hm, h⟩ | ⟨hm, h⟩ := cdelta_cases p q <;> omega

/-- Bits 15 to 11 of the samples never matter (R121). -/
theorem cdelta_congr_low {p p' q q' : Word} (hp : p'.setWidth 11 = p.setWidth 11)
    (hq : q'.setWidth 11 = q.setWidth 11) : cdelta p' q' = cdelta p q := by
  have hlow (u v : Word) : (v - u).setWidth 11 = v.setWidth 11 - u.setWidth 11 := by bv_omega
  rw [cdelta_eq_toInt_low, cdelta_eq_toInt_low, hlow, hlow, hp, hq]

/-- The delta fits the 16 bits of `RES` (R89). -/
theorem toInt_resOfDelta_cdelta (p q : Word) : (resOfDelta (cdelta p q)).toInt = cdelta p q := by
  have hlo := cdelta_lower p q
  have hhi := cdelta_upper p q
  exact toInt_narrow16 (by omega) (by omega)

/-! #### Short windows: each discharge entry adds at most 1024 to an accumulator (R132, R191) -/

/-- Within `30 * 1024` there is room for one more circular difference, in either direction. -/
theorem toInt_accumulated_cdelta {acc : Word} (h : acc.toInt.natAbs ≤ 1024 * 30) (p q : Word) :
    (accumulated .x acc (cdelta p q)).toInt = acc.toInt + cdelta p q ∧
    (accumulated .y acc (cdelta p q)).toInt = acc.toInt - cdelta p q := by
  have hlo := cdelta_lower p q
  have hhi := cdelta_upper p q
  exact ⟨toInt_narrow16 (by omega) (by omega), toInt_narrow16 (by omega) (by omega)⟩

theorem natAbs_accumulated_cdelta_le {acc : Word} {n : Nat} (hn : n ≤ 30) (h : acc.toInt.natAbs ≤ 1024 * n)
    (a : Axis) (p q : Word) : (accumulated a acc (cdelta p q)).toInt.natAbs ≤ 1024 * (n + 1) := by
  have hlo := cdelta_lower p q
  have hhi := cdelta_upper p q
  obtain ⟨hx, hy⟩ := toInt_accumulated_cdelta (acc := acc) (by omega) p q
  cases a with
  | x => omega
  | y => omega

/-- Updated or skipped, an axis takes at most 1024 from one discharge entry. -/
theorem natAbs_acc_sampledUnless_le {x : AxisState} {n : Nat} (hn : n ≤ 30) (h : x.acc.toInt.natAbs ≤ 1024 * n)
    (missed : Bool) (deadTicks ts : Word) (a : Axis) :
    (bif missed then x else sampledCells deadTicks ts a x).acc.toInt.natAbs ≤ 1024 * (n + 1) := by
  cases missed with
  | true => exact h.trans (by omega)
  | false => exact natAbs_accumulated_cdelta_le hn h a _ _

/-- The count of the pair catches up with the entry's deltas, or the flush clears them. -/
theorem State.cadence_accInv {s : State} (hcyc : s.cyc.toNat < s.params.nWindow)
    (hx : s.axis.x.acc.toInt.natAbs ≤ 1024 * (s.cyc.toNat + 1))
    (hy : s.axis.y.acc.toInt.natAbs ≤ 1024 * (s.cyc.toNat + 1)) : s.cadence.AccInv := by
  obtain ⟨-, e⟩ | ⟨-, r, e⟩ := s.cadence_cases <;> rw [e]
  · rw [← State.cyc_succ hcyc] at hx hy
    exact ⟨hx, hy⟩
  · exact ⟨le_rfl, le_rfl⟩

theorem State.tick_accInv {s : State} (hwin : s.params.nWindow ≤ 31) (hcyc : s.cyc.toNat < s.params.nWindow)
    (hacc : s.AccInv) (b : BitVec 2) : (s.tick b).AccInv := by
  have hn : s.cyc.toNat ≤ 30 := by omega
  obtain ⟨hx, hy⟩ := hacc
  cases hm : s.mode with
  | discharge =>
    rw [State.tick_discharge hm, State.dischargeEntry_eq]
    exact State.cadence_accInv (s := s.beforeCadence b) hcyc (natAbs_acc_sampledUnless_le hn hx _ _ _ _)
      (natAbs_acc_sampledUnless_le hn hy _ _ _ _)
  | read =>
    rw [State.tick_read hm]
    exact ⟨hx, hy⟩

/-- Of the nominal operations a tick alone writes an accumulator or the count of the window. -/
theorem exec_nominal_keeps_accInv {i : Instr} {s t : State} (hnominal : isNominal i = true)
    (hwin : s.params.nWindow ≤ 31) (hcyc : s.cyc.toNat < s.params.nWindow) (hacc : s.AccInv)
    (h : exec i s = .next t) : t.AccInv := by
  rw [exec_next_performed h]
  cases i with
  | init => exact hacc
  | tick b => exact State.tick_accInv (s := s.quiet) hwin hcyc hacc b
  | clk m =>
    obtain ⟨k, n, e⟩ := performed_clk_frame m s
    rw [e]
    exact hacc
  | edge c =>
    obtain ⟨k, n, e⟩ := performed_edge_frame c s
    rw [e]
    exact hacc
  | arm | disarm | tstamp | isrun | topos | cdelta | accum | flush | sample | senselow | release | buttons | cadence =>
    cases hnominal

/-- Settles O15: at most 30 entries lie behind an open window of at most 31, so both accumulators are within
`30 * 1024`, and one more difference reaches `31 * 1024`, inside 16 bits. -/
theorem shortWindowsNeverOverflow : Obligations.ShortWindowsNeverOverflow := by
  rintro i s t hnominal hwin ⟨-, hcyc, -⟩ hacc h
  refine ⟨exec_nominal_keeps_accInv hnominal hwin hcyc hacc h, fun p q => ?_⟩
  obtain ⟨hx, hy⟩ := hacc
  exact ⟨(toInt_accumulated_cdelta (by omega) p q).1, (toInt_accumulated_cdelta (by omega) p q).2⟩

/-! #### Laws of the circular difference (R129) -/

/-- Settles O54: both directions are congruent modulo 2048 up to sign, and the range leaves one representative of each
class; half the circle has `-1024` alone. -/
theorem circularDifferenceIsAntisymmetric : Obligations.CircularDifferenceIsAntisymmetric := by
  intro p q
  have hpq := cdelta_emod p q
  have hqp := cdelta_emod q p
  have hlo := cdelta_lower p q
  have hhi := cdelta_upper p q
  have hlo' := cdelta_lower q p
  have hhi' := cdelta_upper q p
  refine ⟨⟨hlo, hhi⟩, ?_, fun hm => ?_, fun hm => ⟨?_, ?_⟩⟩
  · rw [cdelta_eq_toInt_low, BitVec.sub_self]
    rfl
  · omega
  · omega
  · omega

/-- Settles O55: a shift cancels in `q - p`; and the sum of two differences is congruent to the one from the first
sample to the last, so a sum inside the range is that difference. -/
theorem circularDifferenceIsTranslationInvariant : Obligations.CircularDifferenceIsTranslationInvariant := by
  refine ⟨fun p q k => ?_, fun p q r hsmall => ?_⟩
  · rw [cdelta_eq_toInt_low, cdelta_eq_toInt_low, add_sub_add_right_eq_sub]
  · have hpq := cdelta_emod p q
    have hqr := cdelta_emod q r
    have hpr := cdelta_emod p r
    have hlo := cdelta_lower p r
    have hhi := cdelta_upper p r
    omega

/-- Settles O56: the dead-time cancels in `v - u`. -/
theorem deadTimeCancelsInDifferences : Obligations.DeadTimeCancelsInDifferences := by
  intro deadTicks u v
  rw [topos_eq_sub, topos_eq_sub, cdelta_eq_toInt_low, cdelta_eq_toInt_low, sub_sub_sub_cancel_right]

/-! #### The five operations of the decoder, and the flushes of `CADENCE` -/

/-- Settles O28: the answer is the difference of the two cells, on quiet ports. -/
theorem toposSubtractsTheDeadTime : Obligations.ToposSubtractsTheDeadTime := by
  intro v s
  refine ⟨topos s.params.deadTicks v, rfl, ?_⟩
  rw [topos_eq_sub, BitVec.toNat_sub]
  omega

/-- Settles O29: `RES` holds the circular difference, which is fixed by its two ranges and by the low 11 bits. -/
theorem cdeltaIsTheSignedCircularDifference : Obligations.CdeltaIsTheSignedCircularDifference := by
  intro p q s
  refine ⟨resOfDelta (cdelta p q), rfl, ?_⟩
  rw [toInt_resOfDelta_cdelta]
  have hcases := cdelta_cases p q
  refine ⟨fun _ => by omega, fun _ => by omega, cdelta_lower p q, cdelta_upper p q, cdelta_eq_toInt_low p q, ?_⟩
  intro p' q' hp hq
  simp only [exec, execCdelta, cdelta_congr_low hp hq]

/-- Settles O30: narrowing makes the sum, for Y the difference, of the two cells. -/
theorem accumAddsAndInvertsY : Obligations.AccumAddsAndInvertsY := by
  intro d s
  rw [← accumulated_x, ← accumulated_y]
  exact ⟨rfl, rfl⟩

/-- Division toward zero is `sign(a) * floor(|a| / n)` (R122). -/
theorem sdiv_eq_sign_mul (a : Int) (n : Nat) : sdiv a n = a.sign * ((a.natAbs / n : Nat) : Int) := by
  unfold sdiv
  rw [Int.ofNat_tdiv]
  obtain h | rfl | h := lt_trichotomy a 0
  · rw [Int.sign_eq_neg_one_of_neg h, Int.ofNat_natAbs_of_nonpos h.le, Int.neg_tdiv, neg_one_mul, neg_neg]
  · simp
  · rw [Int.sign_eq_one_of_pos h, Int.natAbs_of_nonneg h.le, one_mul]

theorem velocity_eq_sign_mul (acc : Word) (n : Nat) :
    velocity acc n = BitVec.ofInt 8 (acc.toInt.sign * ((acc.toInt.natAbs / n : Nat) : Int)) := by
  rw [velocity, sdiv_eq_sign_mul, narrow8]

/-- `FLUSH` in every state: the velocity stored and, sign-extended, on `RES`; the accumulator cleared (R126). -/
theorem exec_flush (a : Axis) (s : State) :
    exec (.flush a) s = .next
      { s with
        axis := s.axis.set a
          { s.axis.get a with vout := velocity (s.axis.get a).acc s.params.nWindow, acc := 0 }
        res := some (BitVec.ofInt 16 (velocity (s.axis.get a).acc s.params.nWindow).toInt)
        report := none } := by
  cases a <;> rfl

/-- Settles O31: the velocity is the quotient rounded toward zero, in 8 bits. -/
theorem flushDividesTowardZeroAndClears : Obligations.FlushDividesTowardZeroAndClears := fun a s =>
  ⟨_, velocity_eq_sign_mul (s.axis.get a).acc s.params.nWindow, exec_flush a s⟩

theorem accumulated_x_resOfDelta (acc : Word) (d : Int) : accumulated .x acc d = acc + resOfDelta d := by
  rw [accumulated, narrow16_add, narrow16_toInt, resOfDelta]

theorem accumulated_y_resOfDelta (acc : Word) (d : Int) : accumulated .y acc d = acc - resOfDelta d := by
  rw [accumulated, narrow16_sub, narrow16_toInt, resOfDelta]

theorem exec_sample_of_inited {s : State} (hin : s.inited = true) (a : Axis) :
    exec (.sample a) s = .next (s.quiet.sample a) :=
  exec_of_inited nofun hin

/-- Settles O32: the delta is the circular difference of the new sample and the old one, in 16 bits. -/
theorem sampleUpdatesPositionAndAccumulator : Obligations.SampleUpdatesPositionAndAccumulator := by
  intro s hin
  refine ⟨⟨resOfDelta (cdelta s.axis.x.cur (s.chan.c0.ts - s.params.deadTicks)), ?_, ?_⟩,
    ⟨resOfDelta (cdelta s.axis.y.cur (s.chan.c1.ts - s.params.deadTicks)), ?_, ?_⟩⟩
  · rw [toInt_resOfDelta_cdelta, cdelta_eq_toInt_low]
  · rw [exec_sample_of_inited hin, State.sample_eq, ← accumulated_x_resOfDelta, ← topos_eq_sub]
    rfl
  · rw [toInt_resOfDelta_cdelta, cdelta_eq_toInt_low]
  · rw [exec_sample_of_inited hin, State.sample_eq, ← accumulated_y_resOfDelta, ← topos_eq_sub]
    rfl

/-- The button mask holds the left button in bit 0 and the right one in bit 1 (R147). -/
theorem getLsbD_buttonMask (l r : Bool) :
    (buttonMask l r).getLsbD 0 = l ∧ (buttonMask l r).getLsbD 1 = r := by
  revert l r
  decide

/-- Settles O36: the count of the pair inside a window and at its end. -/
theorem cadenceCountsAndReports : Obligations.CadenceCountsAndReports := by
  intro s
  refine ⟨fun hne => ?_, fun heq => ?_⟩
  · exact congrArg _ (State.cadence_of_ne (s := s.quiet) hne)
  · obtain ⟨hleft, hright⟩ := getLsbD_buttonMask s.btnLeft s.btnRight
    exact ⟨_, _, _, velocity_eq_sign_mul s.axis.x.acc s.params.nWindow,
      velocity_eq_sign_mul s.axis.y.acc s.params.nWindow, hleft, hright,
      congrArg _ (State.cadence_of_eq (s := s.quiet) heq)⟩

/-! #### A window of equal deltas (R131) -/

/-- Deltas accumulated one after another are their sum accumulated at once, wraps included. -/
theorem accumulated_accumulated (a : Axis) (acc : Word) (d e : Int) :
    accumulated a (accumulated a acc d) e = accumulated a acc (d + e) := by
  cases a with
  | x => simp only [accumulated, narrow16_add, narrow16_toInt, add_assoc]
  | y => simp only [accumulated, narrow16_sub, narrow16_add, narrow16_toInt, sub_sub]

theorem accumulated_zero (a : Axis) (acc : Word) : accumulated a acc 0 = acc := by
  cases a with
  | x => rw [accumulated, add_zero, narrow16_toInt]
  | y => rw [accumulated, sub_zero, narrow16_toInt]

/-- A run of `k` equal `ACCUM` is performed in every state and accumulates `k` times the delta (R125). -/
theorem execAll_replicate_accum (a : Axis) (d : Word) (k : Nat) (s : State) :
    ∃ u, (∀ is, execAll (List.replicate k (.accum a d) ++ is) s = execAll is u) ∧ u.params = s.params ∧
      (u.axis.get a).acc = accumulated a (s.axis.get a).acc (k * d.toInt) := by
  induction k generalizing s with
  | zero => exact ⟨s, fun _ => rfl, rfl, by rw [Nat.cast_zero, zero_mul, accumulated_zero]⟩
  | succ k ih =>
    obtain ⟨u, hrun, hparams, hacc⟩ := ih (s.quiet.accumulate a d.toInt)
    refine ⟨u, hrun, hparams, ?_⟩
    rw [hacc, State.accumulate_eq, PerAxis.get_set_self, accumulated_accumulated, Nat.cast_succ, add_one_mul,
      add_comm d.toInt, State.quiet_axis]

/-- The flush after the run divides the sum by the length of the window, whatever `k` (R126). -/
theorem execAll_replicate_accum_flush (a : Axis) (d : Word) (k : Nat) (s : State) :
    ∃ t, execAll (List.replicate k (.accum a d) ++ [.flush a]) s = .next t ∧
      (t.axis.get a).vout = velocity (accumulated a (s.axis.get a).acc (k * d.toInt)) s.params.nWindow ∧
      (t.axis.get a).acc = 0 ∧ t.res = some (BitVec.ofInt 16 (t.axis.get a).vout.toInt) := by
  obtain ⟨u, hrun, hparams, hacc⟩ := execAll_replicate_accum a d k s
  refine ⟨_, (hrun _).trans (execAll_cons_of_next (exec_flush a u) []), ?_⟩
  rw [PerAxis.get_set_self, hacc, hparams]
  exact ⟨rfl, rfl, rfl⟩

/-- At most `N_WINDOW` deltas that 8 bits hold have a sum between `-128` and `127` times `N_WINDOW`. -/
theorem equalDeltas_bounds {k n : Nat} {d : Int} (hk : k ≤ n) (lo : -128 ≤ d) (hi : d ≤ 127) :
    -128 * (n : Int) ≤ k * d ∧ k * d ≤ 127 * (n : Int) := by
  have hlo := mul_le_mul_of_nonneg_left lo (Int.natCast_nonneg k)
  have hhi := mul_le_mul_of_nonneg_left hi (Int.natCast_nonneg k)
  omega

/-- A window's sum of equal deltas does not wrap in the accumulator, so X's velocity is its quotient, Y's the negated
one (R126, D17). -/
theorem velocity_equalDeltas {k n : Nat} {d : Int} (hn : n ≤ 64) (hk : k ≤ n) (lo : -128 ≤ d) (hi : d ≤ 127) :
    velocity (accumulated .x 0 (k * d)) n = narrow8 ((k * d).tdiv n) ∧
    velocity (accumulated .y 0 (k * d)) n = narrow8 (-(k * d).tdiv n) := by
  obtain ⟨hlo, hhi⟩ := equalDeltas_bounds hk lo hi
  generalize (k : Int) * d = e at hlo hhi ⊢
  have hzero : (0 : Word).toInt = 0 := rfl
  have hx : (accumulated .x 0 e).toInt = e := by
    rw [accumulated, hzero, zero_add]
    exact toInt_narrow16 (by omega) (by omega)
  have hy : (accumulated .y 0 e).toInt = -e := by
    rw [accumulated, hzero, zero_sub]
    exact toInt_narrow16 (by omega) (by omega)
  rw [velocity, velocity, sdiv, sdiv, hx, hy, Int.neg_tdiv]
  exact ⟨rfl, rfl⟩

/-- The quotient of such a sum is itself a value of 8 bits. -/
theorem tdiv_equalDeltas_bounds {k n : Nat} {d : Int} (hn : 1 ≤ n) (hk : k ≤ n) (lo : -128 ≤ d) (hi : d ≤ 127) :
    -128 ≤ (k * d).tdiv n ∧ (k * d).tdiv n ≤ 127 := by
  obtain ⟨hlo, hhi⟩ := equalDeltas_bounds hk lo hi
  have hpos : (0 : Int) < n := Int.ofNat_lt.2 hn
  refine ⟨Int.le_tdiv_of_mul_le hpos hlo, ?_⟩
  calc (k * d).tdiv n ≤ (127 * (n : Int)).tdiv n := Int.tdiv_le_tdiv hpos hhi
    _ = 127 := Int.mul_tdiv_cancel 127 hpos.ne'

/-- Settles O53: the accumulator holds the whole sum, the flush divides it by `N_WINDOW`, and with a full window the
division undoes the sum. -/
theorem windowOfEqualDeltasReturnsTheDelta : Obligations.WindowOfEqualDeltasReturnsTheDelta := by
  intro k d s hk lo hi
  obtain ⟨hx, hy⟩ := velocity_equalDeltas s.params.nWindow_le hk lo hi
  obtain ⟨hqlo, hqhi⟩ := tdiv_equalDeltas_bounds s.params.nWindow_pos hk lo hi
  have hdiv (hfull : k = s.params.nWindow) : ((k : Int) * d.toInt).tdiv s.params.nWindow = d.toInt := by
    have := s.params.nWindow_pos
    rw [hfull]
    exact Int.mul_tdiv_cancel_left _ (by omega)
  refine ⟨fun hzero => ?_, fun hzero => ?_⟩
  · obtain ⟨t, hrun, hvout, hacc, hres⟩ := execAll_replicate_accum_flush .x d k s
    rw [PerAxis.get_x, PerAxis.get_x, hzero, hx] at hvout
    have hval : t.axis.x.vout.toInt = ((k : Int) * d.toInt).tdiv s.params.nWindow := by
      rw [hvout, toInt_narrow8 hqlo hqhi]
    exact ⟨t, hrun, hval, hacc, hres, fun h => hval.trans (hdiv h)⟩
  · obtain ⟨t, hrun, hvout, hacc, hres⟩ := execAll_replicate_accum_flush .y d k s
    rw [PerAxis.get_y, PerAxis.get_y, hzero, hy] at hvout
    exact ⟨t, hrun, hvout, hacc, hres, fun h => hvout.trans (by rw [hdiv h, narrow8])⟩

end Sys2Proof.Machine

namespace Sys2Proof.Machine

/-! ### State machine: the two phases, missed edges, the report of a window (spec/42_sync_fsm.md)

#### A discharge entry, cell by cell: the state handed to `CADENCE`, then the count of the pair (R142) -/

theorem exec_tick_of_inited {s : State} (hin : s.inited = true) (b : BitVec 2) :
    exec (.tick b) s = .next (s.quiet.tick b) :=
  exec_of_inited nofun hin

theorem State.tick_discharge_eq {s : State} (hm : s.mode = .discharge) (b : BitVec 2) :
    s.tick b = { (s.beforeCadence b).cadence with mode := .read } := by
  rw [State.tick_discharge hm, State.dischargeEntry_eq]

theorem leftPressed_iff (b : BitVec 2) : leftPressed b = true ↔ b.getLsbD 0 = false := by
  rw [leftPressed, Bool.not_eq_true']

theorem rightPressed_iff (b : BitVec 2) : rightPressed b = true ↔ b.getLsbD 1 = false := by
  rw [rightPressed, Bool.not_eq_true']

/-- Both channels are re-armed, whatever was missed. -/
theorem State.beforeCadence_chan_get (s : State) (b : BitVec 2) (c : Channel) :
    (s.beforeCadence b).chan.get c = (s.chan.get c).rearmed := by
  cases c <;> rfl

/-- Each axis is skipped or updated on the query of its own channel (R148). -/
theorem State.beforeCadence_axis_get (s : State) (b : BitVec 2) (a : Axis) :
    (s.beforeCadence b).axis.get a =
      bif (s.chan.get (channelOf a)).run then s.axis.get a
      else sampledCells s.params.deadTicks (s.chan.get (channelOf a)).ts a (s.axis.get a) := by
  cases a <;> rfl

/-- What the count of a pair does to one axis: the samples stay, and the end of a window flushes (R126, R146). -/
theorem State.cadence_axis_get (s : State) (a : Axis) :
    (s.cadence.axis.get a).cur = (s.axis.get a).cur ∧ (s.cadence.axis.get a).prev = (s.axis.get a).prev ∧
    ((s.cyc + 1).toNat ≠ s.params.nWindow → s.cadence.axis.get a = s.axis.get a) ∧
    ((s.cyc + 1).toNat = s.params.nWindow →
      (s.cadence.axis.get a).acc = 0 ∧
      (s.cadence.axis.get a).vout = velocity (s.axis.get a).acc s.params.nWindow) := by
  obtain ⟨hne, e⟩ | ⟨heq, r, e⟩ := s.cadence_cases <;> rw [e]
  · exact ⟨rfl, rfl, fun _ => rfl, fun heq => absurd heq hne⟩
  · cases a <;> exact ⟨rfl, rfl, fun hne => absurd heq hne, fun _ => ⟨rfl, rfl⟩⟩

/-- The pair is counted and nothing reported inside a window; at its end the count starts again with a report (R146). -/
theorem State.cadence_count (s : State) :
    ((s.cyc + 1).toNat ≠ s.params.nWindow → s.cadence.cyc = s.cyc + 1 ∧ s.cadence.report = s.report) ∧
    ((s.cyc + 1).toNat = s.params.nWindow → s.cadence.cyc = 0 ∧ s.cadence.report.isSome = true) := by
  obtain ⟨hne, e⟩ | ⟨heq, r, e⟩ := s.cadence_cases <;> rw [e]
  · exact ⟨fun _ => ⟨rfl, rfl⟩, fun heq => absurd heq hne⟩
  · exact ⟨fun hne => absurd heq hne, fun _ => ⟨rfl, rfl⟩⟩

/-- Settles O39: the entry decides each axis by its own query, then `CADENCE` flushes it or leaves it as it is. -/
theorem missedEdgeSkipsItsOwnAxisOnly : Obligations.MissedEdgeSkipsItsOwnAxisOnly := by
  intro b s hin hm
  have htick := exec_tick_of_inited hin b
  rw [State.tick_discharge_eq (s := s.quiet) hm] at htick
  obtain ⟨hinside, hend⟩ := (s.quiet.beforeCadence b).cadence_count
  refine ⟨_, htick, fun a hmissed => ?_, fun a hvalid => ?_, fun c => ?_, ?_, ?_, hinside, hend, rfl⟩
  · have hskip : (s.quiet.beforeCadence b).axis.get a = s.axis.get a := by
      rw [State.beforeCadence_axis_get, State.quiet_chan, hmissed]
      rfl
    have hcells := (s.quiet.beforeCadence b).cadence_axis_get a
    rw [hskip] at hcells
    exact hcells
  · have hupdate : (s.quiet.beforeCadence b).axis.get a =
        sampledCells s.params.deadTicks (s.chan.get (channelOf a)).ts a (s.axis.get a) := by
      rw [State.beforeCadence_axis_get, State.quiet_chan, hvalid]
      rfl
    have hcells := (s.quiet.beforeCadence b).cadence_axis_get a
    rw [hupdate] at hcells
    obtain ⟨hcur, hprev, hkeep, hflush⟩ := hcells
    refine ⟨hprev, hcur, fun hne => ?_, hflush⟩
    rw [hkeep hne]
    exact ⟨rfl, rfl⟩
  · simp [State.beforeCadence_chan_get, Capture.rearmed]
  · rw [State.cadence_btnLeft]
    exact leftPressed_iff b
  · rw [State.cadence_btnRight]
    exact rightPressed_iff b

/-! #### A window of tick pairs (R146, R151) -/

theorem tickPairs_succ (k : Nat) (b : BitVec 2) : tickPairs (k + 1) b = .tick b :: .tick b :: tickPairs k b := rfl

theorem State.tick_cyc_of_read {s : State} (hm : s.mode = .read) (b : BitVec 2) : (s.tick b).cyc = s.cyc := by
  rw [State.tick_read hm]
  rfl

theorem State.tick_cyc_of_inside {s : State} (hm : s.mode = .discharge)
    (hne : (s.cyc + 1).toNat ≠ s.params.nWindow) (b : BitVec 2) : (s.tick b).cyc = s.cyc + 1 := by
  rw [State.tick_discharge_eq hm]
  exact ((s.beforeCadence b).cadence_count.1 hne).1

/-- A discharge entry on a quiet port reports exactly at the end of the window (R146). -/
theorem State.tick_report_isSome_iff {s : State} (hm : s.mode = .discharge) (hquiet : s.report = none)
    (b : BitVec 2) : (s.tick b).report.isSome = true ↔ (s.cyc + 1).toNat = s.params.nWindow := by
  rw [State.tick_discharge_eq hm]
  obtain ⟨hinside, hend⟩ := (s.beforeCadence b).cadence_count
  refine ⟨fun hsome => ?_, fun heq => (hend heq).2⟩
  by_contra hne
  have hnone : (s.beforeCadence b).cadence.report = none := (hinside hne).2.trans hquiet
  simp [hnone] at hsome

/-- Between two pairs of a window, `n` pairs counted: the next tick is performed and enters the discharge phase. -/
structure State.BetweenPairs (p : Params) (n : Nat) (s : State) : Prop where
  inited : s.inited = true
  mode : s.mode = .discharge
  cyc : s.cyc.toNat = n
  params : s.params = p

/-- A pair that does not end the window adds one to its count. -/
theorem State.BetweenPairs.pair {p : Params} {n : Nat} {s : State} (hs : s.BetweenPairs p n) (hn : n + 1 < p.nWindow)
    (b : BitVec 2) : ((s.quiet.tick b).quiet.tick b).BetweenPairs p (n + 1) := by
  obtain ⟨hin, hm, rfl, rfl⟩ := hs
  have hsucc : (s.cyc + 1).toNat = s.cyc.toNat + 1 := State.cyc_succ (by omega)
  have hread : (s.quiet.tick b).mode = .read := (s.quiet.tick_mode_eq_read_iff b).2 hm
  have hcyc : (s.quiet.tick b).cyc = s.cyc + 1 := State.tick_cyc_of_inside (s := s.quiet) hm (hsucc.trans_ne hn.ne) b
  refine ⟨?_, ?_, ?_, ?_⟩
  · simp [hin]
  · rw [State.tick_read (s := (s.quiet.tick b).quiet) hread]
  · rw [State.tick_cyc_of_read (s := (s.quiet.tick b).quiet) hread, State.quiet_cyc, hcyc, hsucc]
  · simp

/-- `k` pairs that stay inside the window are performed and counted. -/
theorem State.BetweenPairs.pairs {p : Params} {n k : Nat} {s : State} (hs : s.BetweenPairs p n)
    (hk : n + k < p.nWindow) (b : BitVec 2) :
    ∃ u, (∀ is, execAll (tickPairs k b ++ is) s = execAll is u) ∧ u.BetweenPairs p (n + k) := by
  induction k generalizing n s with
  | zero => exact ⟨s, fun _ => rfl, hs⟩
  | succ k ih =>
    have hpair := hs.pair (by omega) b
    obtain ⟨u, hrun, hu⟩ := ih hpair (by omega)
    have hfirst := exec_tick_of_inited hs.inited b
    have hsecond := exec_tick_of_inited (s := s.quiet.tick b) ((s.quiet.tick_inited b).trans hs.inited) b
    refine ⟨u, fun is => ?_, by rwa [Nat.add_right_comm, Nat.add_assoc] at hu⟩
    rw [tickPairs_succ, List.cons_append, List.cons_append, execAll_cons_of_next hfirst,
      execAll_cons_of_next hsecond, hrun]

/-- Settles O51: the `k` pairs leave the count at `k`, and the tick after them reports if it completes the window. -/
theorem oneReportPerWindowOfTickPairs : Obligations.OneReportPerWindowOfTickPairs := by
  intro k b s hin hm hcyc hk
  have hstart : s.BetweenPairs s.params 0 := ⟨hin, hm, by rw [hcyc]; rfl, rfl⟩
  obtain ⟨u, hrun, huin, hum, hucyc, huparams⟩ := hstart.pairs (k := k) (by omega) b
  rw [Nat.zero_add] at hucyc
  have hsucc : (u.cyc + 1).toNat = k + 1 := by
    rw [State.cyc_succ (by rw [hucyc, huparams]; exact hk), hucyc]
  refine ⟨_, (hrun _).trans (execAll_cons_of_next (exec_tick_of_inited huin b) []), ?_⟩
  rw [State.tick_report_isSome_iff (s := u.quiet) hum rfl, State.quiet_cyc, State.quiet_params, hsucc, huparams]

/-! #### The sense lines, the buttons and the read entry (R141, R143 to R145) -/

/-- Settles O33: both drivers on quiet ports, the pull-up cells kept. -/
theorem senselowDrivesBothLinesLow : Obligations.SenselowDrivesBothLinesLow := fun s =>
  congrArg Host.Outcome.next s.quiet.senseLow_eq

/-- Settles O34: both drivers on quiet ports, the level cells kept. -/
theorem releaseMakesBothLinesInputs : Obligations.ReleaseMakesBothLinesInputs := fun s =>
  congrArg Host.Outcome.next s.quiet.release_eq

/-- Settles O35: each button cell takes the negation of its pin. -/
theorem buttonsSampleActiveLow : Obligations.ButtonsSampleActiveLow := fun b _ =>
  ⟨leftPressed b, rightPressed b, leftPressed_iff b, rightPressed_iff b, rfl⟩

/-- Settles O37: a tick in Read is `RELEASE` and the toggle of `mode`, neither of which looks at the pins. -/
theorem tickInReadReleasesTheLines : Obligations.TickInReadReleasesTheLines := by
  intro b s hin hm
  rw [exec_tick_of_inited hin, State.tick_read (s := s.quiet) hm, State.release_eq]
  rfl

end Sys2Proof.Machine

namespace Sys2Proof.Machine

/-! #### With no command waiting (R175) -/

/-- Settles O2: no word is taken off the stream, so the step clears the output ports and writes nothing else. -/
theorem idleStepHoldsAllState : Obligations.IdleStepHoldsAllState := by
  intro s hcmd
  calc step s = .next s.quiet := by simp only [step, State.takeCommand_nil hcmd]
    _ = .next { s with res := none, report := none } := rfl

end Sys2Proof.Machine

namespace Sys2Proof.Machine

/-! ### Reset and hazards: the first discharge entry, the edges ENV1 excludes, the events before `INIT`
(spec/70_reset_and_hazards.md)

#### The first discharge entry (R183) -/

theorem exec_init_of_not_armSeen {s : State} (harm : s.armSeen = false) :
    exec .init s = .next s.quiet.initChannels :=
  initStopsBothChannels s harm

/-- The first sample against zeroed cells: X accumulates its signed low 11 bits, Y their negation. -/
theorem toInt_accumulated_zero_cdelta_zero (q : Word) :
    (accumulated .x 0 (cdelta 0 q)).toInt = (q.setWidth 11).toInt ∧
    (accumulated .y 0 (cdelta 0 q)).toInt = -(q.setWidth 11).toInt := by
  have hzero : (0 : Word).toInt = 0 := rfl
  have hlow : cdelta 0 q = (q.setWidth 11).toInt := by rw [cdelta_eq_toInt_low, sub_zero]
  have hsum := toInt_accumulated_cdelta (acc := 0) (Nat.zero_le _) 0 q
  rw [hzero, zero_add, zero_sub] at hsum
  rw [← hlow]
  exact hsum

/-- Settles O52: `INIT` stops both channels and keeps their latches, so the entry finds no missed edge and samples
`TS_INIT` against the zeroed cells, inside the window. -/
theorem firstDischargeEntryConsumesTsInit : Obligations.FirstDischargeEntryConsumesTsInit := by
  intro p ts0 ts1 b hwin
  have hinit := exec_init_of_not_armSeen (s := State.resetWith p ts0 ts1) rfl
  obtain ⟨t, htick, -, hsampled, -⟩ :=
    missedEdgeSkipsItsOwnAxisOnly b (State.resetWith p ts0 ts1).quiet.initChannels rfl rfl
  have hinside : ((0 : Byte) + 1).toNat ≠ p.nWindow := hwin.symm
  obtain ⟨hprevX, hcurX, haccX, -⟩ := hsampled .x rfl
  obtain ⟨hprevY, hcurY, haccY, -⟩ := hsampled .y rfl
  obtain ⟨haccX, -⟩ := haccX hinside
  obtain ⟨haccY, -⟩ := haccY hinside
  rw [topos_eq_sub] at hcurX hcurY haccX haccY
  obtain ⟨hx, -⟩ := toInt_accumulated_zero_cdelta_zero (ts0 - p.deadTicks)
  obtain ⟨-, hy⟩ := toInt_accumulated_zero_cdelta_zero (ts1 - p.deadTicks)
  exact ⟨t, execAll_pair hinit htick, hprevX, hcurX, (congrArg BitVec.toInt haccX).trans hx, hprevY, hcurY,
    (congrArg BitVec.toInt haccY).trans hy⟩

/-! #### No edge on a line the block drives (R188) -/

theorem SenseLine.dir_of_driven {l : SenseLine} {high : Bool} (h : l.drive = .driven high) : l.dir = .output := by
  cases hd : l.dir with
  | output => rfl
  | input => cases hp : l.pullup <;> simp [SenseLine.drive, hd, hp] at h

theorem State.linesLow.dir {s : State} (h : s.linesLow) (c : Channel) : (s.line.get c).dir = .output := by
  obtain ⟨h0, h1⟩ := h
  cases c with
  | c0 => exact SenseLine.dir_of_driven h0
  | c1 => exact SenseLine.dir_of_driven h1

/-- Settles O17: in Read both lines are outputs, and ENV1 admits an edge on an input only. -/
theorem env1ExcludesEdgesInTheDischargePhase : Obligations.Env1ExcludesEdgesInTheDischargePhase := by
  intro i s hphase hm henv c hedge
  obtain ⟨hread, -⟩ := hphase
  obtain ⟨-, -, hlow⟩ := hread hm
  have hin := henv c hedge
  rw [hlow.dir c] at hin
  cases hin

/-! #### `CLK` and `EDGE` before `INIT` (R186) -/

theorem exec_clk_of_not {s : State} (h : s.inited = false) (m : BitVec 2) :
    exec (.clk m) s = .next s.quiet.unsetChannels :=
  congrArg Host.Outcome.next (performed_clk_of_not h m)

theorem exec_edge_of_not {s : State} (h : s.inited = false) (c : Channel) :
    exec (.edge c) s = .next s.quiet.unsetChannels :=
  congrArg Host.Outcome.next (performed_edge_of_not h c)

/-- Settles O27: either event leaves the channels without a value, and that writes the capture cells and the counter of
draws alone. -/
theorem eventsBeforeInitLeaveTheRestUnchanged : Obligations.EventsBeforeInitLeaveTheRestUnchanged := by
  intro i s hi hin
  obtain ⟨m, rfl⟩ | ⟨c, rfl⟩ := hi
  · exact ⟨_, _, exec_clk_of_not hin m⟩
  · exact ⟨_, _, exec_edge_of_not hin c⟩

end Sys2Proof.Machine
